-- ==== Sys2Proof/Word.lean ====
section
/-! DEFINITION. The word types of CORE: all data arithmetic is on unsigned 32-bit values that wrap
(spec/00_scope.md R10), stream bytes are 8 bits (R17), command and response words are 40 bits
(spec/30_encoding.md R72, R73). `BitVec`'s `+`, `*`, `>>>`, `<<<`, `&&&`, `|||`, `^^^` are R10, R12 and R13. -/

namespace Sys2Proof

/-- A 32-bit unsigned value: seeds, code points, state words, keystream words (R10). -/
abbrev Word := BitVec 32

/-- One byte of a stream (R17). -/
abbrev Byte := BitVec 8

/-- A 40-bit word of the command channel (R72) or of the response channel (R73). -/
abbrev PortWord := BitVec 40

end Sys2Proof
end

