-- ==== Sys2Proof/Syntax.lean ====
section
/-! DEFINITION. The eleven commands of spec/30_encoding.md R76, one constructor per row of opcode_table.json, with
the operand R75 assembles for it. -/

namespace Sys2Proof

/-- A command of the CORE command set, revision 1. -/
inductive Instr where
  /-- HCLR, clear the hash unit (spec/40_hash.md R104). -/
  | hclr
  /-- HCHR, hash the code point `c` (R105). -/
  | hchr (c : Word)
  /-- HFIN, finalise the seed (R106). -/
  | hfin
  /-- GINIT, initialise the generator from `seed` (spec/41_generator.md R124). -/
  | ginit (seed : Word)
  /-- GINITS, initialise the generator from the register SEED (R125). -/
  | ginits
  /-- GNEXT, read one keystream word (R126). -/
  | gnext
  /-- XORW, cipher the full group `v` (spec/42_cipher.md R152). -/
  | xorw (v : Word)
  /-- XORP1, cipher a final group of one byte, `v` = `arg[7:0]` with zeros above (R75, R153). -/
  | xorp1 (v : Word)
  /-- XORP2, cipher a final group of two bytes, `v` = `arg[15:0]` with zeros above (R154). -/
  | xorp2 (v : Word)
  /-- XORP3, cipher a final group of three bytes, `v` = `arg[23:0]` with zeros above (R155). -/
  | xorp3 (v : Word)
  /-- RDST, read the status view (spec/43_system.md R170). -/
  | rdst
deriving DecidableEq, Repr

end Sys2Proof
end

