-- ==== Sys2Proof/WellFormed.lean ====
section
/-! DEFINITION. Which terms of `Instr` stand for commands: the operand of a partial group must have zeros above its
`k` bytes (spec/30_encoding.md R74, format P: `arg[31:8k]` reserved, must be 0). Every other operand is free (R75). -/

namespace Sys2Proof

/-- `v` has no bit set above its low `k` bytes. -/
def fitsBytes (k : Nat) (v : Word) : Bool := decide (v.toNat < 2 ^ (8 * k))

/-- The operand of the command is one its format admits (R74). -/
def Instr.wf : Instr → Bool
  | .hclr | .hfin | .ginits | .gnext | .rdst => true
  | .hchr _ | .ginit _ | .xorw _ => true
  | .xorp1 v => fitsBytes 1 v
  | .xorp2 v => fitsBytes 2 v
  | .xorp3 v => fitsBytes 3 v

end Sys2Proof
end

