-- ==== Sys2Proof/Decode.lean ====
section
/-! DEFINITION. Decoding, total on all 40-bit command words and rejecting by name (spec/30_encoding.md R77, R79 step 1),
then the encoder, and the host's reading of opcode_table.json's numbering. A command word is ONE 40-bit port word
(R72): it has no byte order and no length to find (R78; log 14). -/

namespace Sys2Proof

/-- Why a word is no command (R77). Both are answered with the same status ST_ILLEGAL. -/
inductive DecodeReject where
  /-- R77 (a): `op` is none of the eleven operation codes. -/
  | unknownOp
  /-- R77 (b), (c): `op` is defined but a reserved bit of `arg` is not 0. -/
  | reservedBits
deriving DecidableEq, Repr

/-- `op`, bits 39:32 of a command word (R72). -/
def opField (w : PortWord) : BitVec 8 := w.extractLsb' 32 8

/-- `arg`, bits 31:0 of a command word (R72). -/
def argField (w : PortWord) : Word := w.extractLsb' 0 32

/-- Format N: the whole of `arg` is reserved and must be 0 (R74). -/
def decodeN (i : Instr) (arg : Word) : Except DecodeReject Instr :=
  if arg = 0 then .ok i else .error .reservedBits

/-- Format P: the bits of `arg` above the `k` bytes are reserved and must be 0 (R74); then the operand is `arg`. -/
def decodeP (k : Nat) (mk : Word → Instr) (arg : Word) : Except DecodeReject Instr :=
  if fitsBytes k arg then .ok (mk arg) else .error .reservedBits

/-- R76, R77: the command of an operation code and its `arg` field, or the reason there is none. -/
def decodeFields (op : BitVec 8) (arg : Word) : Except DecodeReject Instr :=
  match op.toNat with
  | 0x01 => decodeN .hclr arg
  | 0x02 => .ok (.hchr arg)
  | 0x03 => decodeN .hfin arg
  | 0x10 => .ok (.ginit arg)
  | 0x11 => decodeN .ginits arg
  | 0x12 => decodeN .gnext arg
  | 0x20 => .ok (.xorw arg)
  | 0x21 => decodeP 1 .xorp1 arg
  | 0x22 => decodeP 2 .xorp2 arg
  | 0x23 => decodeP 3 .xorp3 arg
  | 0x30 => decodeN .rdst arg
  | _ => .error .unknownOp

/-- Step 1 of R79: the command a word stands for, by all 8 bits of `op` (R72) and its `arg`. -/
def decode (w : PortWord) : Except DecodeReject Instr := decodeFields (opField w) (argField w)

/-! ### The encoder, from the same rules -/

/-- The command word with operation code `op` and operand `arg`: `op` above `arg` (R72). -/
def commandWord (op : BitVec 8) (arg : Word) : PortWord := op ++ arg

/-- The operation code of each command (R76). -/
def Instr.op : Instr → BitVec 8
  | .hclr => 0x01 | .hchr _ => 0x02 | .hfin => 0x03
  | .ginit _ => 0x10 | .ginits => 0x11 | .gnext => 0x12
  | .xorw _ => 0x20 | .xorp1 _ => 0x21 | .xorp2 _ => 0x22 | .xorp3 _ => 0x23
  | .rdst => 0x30

/-- The `arg` field of each command (R75). -/
def Instr.arg : Instr → Word
  | .hchr c => c
  | .ginit seed => seed
  | .xorw v | .xorp1 v | .xorp2 v | .xorp3 v => v
  | .hclr | .hfin | .ginits | .gnext | .rdst => 0

/-- The command word of a well-formed command. -/
def encode (i : Instr) : PortWord := commandWord i.op i.arg

/-! ### The opcode table's own columns -/

/-- Column `match` of R76. -/
def Instr.tableMatch : Instr → PortWord
  | .hclr => 0x0100000000 | .hchr _ => 0x0200000000 | .hfin => 0x0300000000
  | .ginit _ => 0x1000000000 | .ginits => 0x1100000000 | .gnext => 0x1200000000
  | .xorw _ => 0x2000000000 | .xorp1 _ => 0x2100000000 | .xorp2 _ => 0x2200000000 | .xorp3 _ => 0x2300000000
  | .rdst => 0x3000000000

/-- Column `mask` of R76. -/
def Instr.tableMask : Instr → PortWord
  | .hclr | .hfin | .ginits | .gnext | .rdst => 0xFFFFFFFFFF
  | .hchr _ | .ginit _ | .xorw _ => 0xFF00000000
  | .xorp1 _ => 0xFFFFFFFF00
  | .xorp2 _ => 0xFFFFFF0000
  | .xorp3 _ => 0xFFFF000000

/-- The command word whose bits the opcode table numbers: the low `nbits` bits of `w`, zeros above them; none where
they do not fit the 40 bits of a command word. -/
def tableWord? (nbits w : Nat) : Option PortWord :=
  if w % 2 ^ nbits < 2 ^ 40 then some (BitVec.ofNat 40 (w % 2 ^ nbits)) else none

/-- What the decoder reads from a word whose bits are numbered as opcode_table.json numbers them. -/
def decodeTableWord (nbits w : Nat) : Option Instr :=
  match tableWord? nbits w with
  | none => none
  | some cmd =>
    match decode cmd with
    | .ok i => some i
    | .error _ => none

end Sys2Proof
end

