-- ==== Sys2Proof/Config.lean ====
section
/-! DEFINITION. The parameters of spec/00_scope.md R5, each under a name of its own (93_implementation_defined.md U1:
named configuration values, not literals in the step functions; UNVERIFIED against the original program, log 10),
and the values the spec leaves free: opaque constants, so that nothing can be proved of what they are. -/

namespace Sys2Proof

/-- `N`: the number of words of the state array. -/
abbrev Config.stateWords : Nat := 624
/-- `MOFF`: the offset of the word mixed in by the twist. -/
def Config.twistOffset : Nat := 397
/-- `HMUL`: the hash multiplier applied to the running seed. -/
def Config.hashMul : Word := 0x0002356F#32
/-- `HADD`: the hash multiplier applied to the code point. -/
def Config.hashAdd : Word := 0x00001D35#32
/-- `LCG`: the multiplier of the initialisation recurrence. -/
def Config.lcgMul : Word := 69069#32
/-- The increment of the initialisation recurrence (R5, row `LCG`). -/
def Config.lcgInc : Word := 1#32
/-- The mask of `INIT` that keeps the top half of `current` (spec/41_generator.md R120). -/
def Config.initHighMask : Word := 0xFFFF0000#32
/-- The right shift of `INIT` that keeps the top half of `term1` (R120). -/
def Config.initShift : Nat := 16
/-- `UPPER`: the twist's mask of the top bit. -/
def Config.upperMask : Word := 0x80000000#32
/-- `LOWER`: the twist's mask of the other bits. -/
def Config.lowerMask : Word := 0x7FFFFFFF#32
/-- `MATRIX`: the twist's XOR constant for odd `y`. -/
def Config.matrix : Word := 0x9908B0DF#32
/-- The four temper shifts: right, left, left, right. -/
def Config.temperShift1 : Nat := 11
def Config.temperShift2 : Nat := 7
def Config.temperShift3 : Nat := 15
def Config.temperShift4 : Nat := 18
/-- The temper mask that goes with the left shift by 7. -/
def Config.temperMask2 : Word := 0x9D2C5680#32
/-- The temper mask that goes with the left shift by 15. -/
def Config.temperMask3 : Word := 0xEFC60000#32
/-- `G`: the bytes of a full group. -/
def Config.groupBytes : Nat := 4
/-- `DOTCP`: the code point of the character `.` (D10; PRESUMED by the spec itself, G1; log 11). -/
def Config.dotCp : Word := 0x2E#32

/-- What word `i` of the state array holds after reset number `n`: unspecified (spec/10_state.md R43, U2), so free.
No body: the model gives these words no value. That only the reset's number and the index decide a word is the model's
choice (DESIGN CHOICE, log 2). -/
opaque Config.unspecifiedMt : Nat → Nat → Word

/-- How many clock edges pass between accepting a command and executing it, at the port level: finite and
unspecified (spec/70_reset_and_hazards.md R232), so free, and not the same for all commands and states (R233): it is
applied to the command word and to the whole port state at the accepting edge, the edge counter in it. That nothing else
decides it is the model's choice (DESIGN CHOICE, log 6). -/
opaque Config.latency {σ : Type} : PortWord → σ → Nat

/-- What the `rsp` port shows while `rsp_valid = 0`: any value (U7), so free. Applied to the input ports and the whole
port state, the edge counter in it; that nothing else decides it is the model's choice (DESIGN CHOICE, log 18). -/
opaque Config.idleRsp {σ : Type} : σ → PortWord

end Sys2Proof
end

