-- ==== Sys2Proof/Machine/State.lean ====
section
/-! DEFINITION. The state of one instance of CORE (spec/10_state.md R20 to R34) as plain data, the response word
(spec/30_encoding.md R73), the outcomes' reasons, and the state after reset (R40 to R45). -/

namespace Sys2Proof.Machine

/-- The status codes a response can carry (spec/60_exceptions.md R185); 3 to 15 are never produced (U8). -/
inductive Status where
  /-- 0, ST_OK. -/
  | ok
  /-- 1, ST_ILLEGAL: the word selects no row of the opcode map. -/
  | illegal
  /-- 2, ST_UNINIT: a keystream word was asked for while GEN_VALID = 0. -/
  | uninit
deriving DecidableEq, Repr

/-- A response word by its fields (R73): status, number of valid result bytes (0 to 4; more are never produced, U8),
and data. -/
structure Response where
  st : Status
  n : Fin 5
  data : Word
deriving DecidableEq, Repr

/-- What the host drives next (R70): a word on the command channel, or the reset input (R215). -/
inductive HostInput where
  | command (w : PortWord)
  | rst
deriving DecidableEq, Repr

/-- The machine's state. The first nine fields are R20's, "and nothing else"; `rsp` is the response channel at the
transaction level (R16); the rest are the model's own (INVENTORY.md, State). -/
structure State where
  /-- ACC_STEM (R21). -/
  accStem : Word
  /-- ACC_FULL (R22). -/
  accFull : Word
  /-- DOT (R23). -/
  dot : Bool
  /-- NZ (R24). -/
  nz : Bool
  /-- SEED (R25). -/
  seed : Word
  /-- MT[0..623] (R26). -/
  mt : Vector Word Config.stateWords
  /-- CURSOR (R27). -/
  cursor : BitVec 10
  /-- GEN_VALID (R29). -/
  genValid : Bool
  /-- ERRS (R30). -/
  errs : Bool
  /-- The response the last transaction put on the response channel, none after reset (R45; log 5). -/
  rsp : Option Response
  /-- The model's own: what the host drives next, oldest first (DESIGN CHOICE, log 4). -/
  inputs : List HostInput
  /-- The model's own: the open parameter SEP of R6, as the list of the code points it holds of (DESIGN CHOICE, log 1). -/
  sep : List Word
  /-- The model's own: U2's uninitialised marker of `mt`, true once an INIT has written it since reset
  (DESIGN CHOICE, log 3). -/
  mtWritten : Bool
  /-- The model's own: the number of resets, which picks the free words `mt` holds after each (DESIGN CHOICE, log 2). -/
  freeCount : Nat
deriving DecidableEq, Repr

/-- Reasons the machine stops with a fault. There is none: "every one of the 2^40 words is either one of the 11
commands or refused" (R77), a refusal of the block is an ordinary response (R193), and "every 40-bit command word in
every reachable state has exactly one outcome" (93_implementation_defined.md, part 1). Safe and exact (log 13). -/
inductive Fault where
deriving DecidableEq, Repr

/-- Reasons an instruction has no meaning. -/
inductive Refusal where
  /-- Raised by a refused arm of `exec`, for an instruction not modelled yet; no arm raises it in this model. Safe. -/
  | notModelled (mnemonic : String)
deriving DecidableEq, Repr

/-- The outcome of a command or a step. -/
abbrev Outcome := Host.Outcome State Fault Refusal

/-- The words of the array after reset number `n`: unspecified (R43), so free values (log 2). -/
@[irreducible] def unspecifiedArray (n : Nat) : Vector Word Config.stateWords :=
  Vector.ofFn fun i => Config.unspecifiedMt n i.val

/-- The machine right after reset (R40 to R45, R216). -/
def State.reset : State where
  accStem := 0
  accFull := 0
  dot := false
  nz := false
  seed := 0
  mt := unspecifiedArray 0
  cursor := 624
  genValid := false
  errs := false
  rsp := none
  inputs := []
  sep := []
  mtWritten := false
  freeCount := 0

end Sys2Proof.Machine
end

