-- ==== Sys2Proof/Machine/Flags.lean ====
section
/-! DEFINITION. The flags and the status view: the separator test that HCHR's flags rest on (spec/00_scope.md R6), and
STATUS (spec/10_state.md R32). Which command writes which flag stands in that command's meaning; there are no
condition codes (R31). -/

namespace Sys2Proof.Machine

/-- `SEP(c)`: `c` separates path components. `SEP(0x2E)` is false whatever the parameter lists (R6; log 1). -/
def State.isSep (s : State) (c : Word) : Bool := c != Config.dotCp && s.sep.contains c

/-- One flag as the bit it is in STATUS. -/
def flagBit (b : Bool) : BitVec 1 := BitVec.ofBool b

/-- STATUS = `{0[17:0], CURSOR[9:0], ERRS, NZ, DOT, GEN_VALID}` (R32, spec/43_system.md R170). -/
def State.status (s : State) : Word :=
  (0#18 ++ s.cursor ++ flagBit s.errs ++ flagBit s.nz ++ flagBit s.dot ++ flagBit s.genValid : BitVec 32)

end Sys2Proof.Machine
end

