-- ==== Sys2Proof/Machine/Operands.lean ====
section
/-! DEFINITION. How operands, stream bytes and responses map to 32-bit and 40-bit words: spec/20_memory.md R53, R54,
spec/30_encoding.md R73, R75, spec/42_cipher.md R151. -/

namespace Sys2Proof.Machine

/-- Byte `i` of a 32-bit value, little-endian: `v[8i+7:8i]` (R53). -/
def byteOf (v : Word) (i : Nat) : Byte := v.extractLsb' (8 * i) 8

/-- The operand of a group of stream bytes, first byte lowest: `{…, b1, b0}` with zeros above (R53, R75). -/
def groupOf : List Byte → Word
  | [] => 0
  | b :: bs => b.setWidth 32 ||| (groupOf bs <<< 8)

/-- The low `m` bytes of a 32-bit value, as bytes in stream order (R53, R54). -/
def bytesOf (m : Nat) (v : Word) : List Byte := (List.range m).map (byteOf v)

/-- `2^(8m) - 1`: the mask of a group of `m` bytes (R151); for `m = 4` it keeps all 32 bits. -/
def groupMask (m : Nat) : Word := BitVec.ofNat 32 (2 ^ (8 * m) - 1)

/-- The output group of `m` bytes for operand `v` and keystream word `w` (R151). -/
def groupXor (m : Nat) (v w : Word) : Word := (v ^^^ w) &&& groupMask m

/-- The code of a status (spec/60_exceptions.md R185). -/
def Status.code : Status → BitVec 4
  | .ok => 0
  | .illegal => 1
  | .uninit => 2

/-- The 40-bit response word: `st` in 39:36, `n` in 35:32, `data` in 31:0 (R73). -/
def Response.word (r : Response) : PortWord := r.st.code ++ BitVec.ofNat 4 r.n.val ++ r.data

/-- The valid result bytes of a response, in stream order (R73). -/
def Response.bytes (r : Response) : List Byte := bytesOf r.n.val r.data

/-- `{ST_OK, 0, 0}`: the command returns no value (R73). -/
def Response.done : Response := ⟨.ok, 0, 0⟩

/-- `{ST_OK, 4, v}`: a 32-bit result (R73). -/
def Response.value (v : Word) : Response := ⟨.ok, 4, v⟩

/-- `{st, 0, 0}`: a refusal (R16, R73). -/
def Response.refusal (st : Status) : Response := ⟨st, 0, 0⟩

end Sys2Proof.Machine
end

