-- ==== Sys2Proof/Machine/Ops.lean ====
section
/-! DEFINITION. The operations the meanings share: answering and refusing (spec/00_scope.md R16), the state array
(spec/20_memory.md R50, R56), the generator's INIT, TWIST, TEMPER and NEXT (spec/41_generator.md R120 to R123), the
check of GEN_VALID (spec/60_exceptions.md R188), reset (spec/10_state.md R40 to R45), and what the host drives next. -/

namespace Sys2Proof.Machine

/-! ### Answering. A refusal is the block's only form of exception (R16, R193): it saves nothing, changes no mode and
jumps nowhere, so there is no return from it either (R194). -/

/-- `respond(st, n, data)` (R16). -/
def respond (r : Response) (s : State) : State := { s with rsp := some r }

/-- `refuse(st)`: `ERRS <- 1; respond(st, 0, 0)`, and nothing else changes (R16, R187, R188, R189). -/
def refuse (st : Status) (s : State) : State := respond (.refusal st) { s with errs := true }

/-! ### The state array -/

/-- `MT[i mod 624]`: the array is read only at indexes below 624 or at `(i+1) mod 624`, `(i+397) mod 624` (R50). -/
def mtRead (mt : Vector Word Config.stateWords) (i : Nat) : Word :=
  mt[i % Config.stateWords]'(Nat.mod_lt _ (by decide))

/-- `MT[i mod 624] <- v` (R9, R56). -/
def mtWrite (mt : Vector Word Config.stateWords) (i : Nat) (v : Word) : Vector Word Config.stateWords :=
  mt.set (i % Config.stateWords) v (Nat.mod_lt _ (by decide))

/-! ### INIT (R120) -/

/-- One step of the recurrence `x -> 69069 x + 1` (mod 2^32). -/
def lcgStep (x : Word) : Word := x * Config.lcgMul + Config.lcgInc

/-- The word one iteration of INIT writes: the top half of `term1` below the top half of `current`. -/
def initWord (current : Word) : Word :=
  (lcgStep current >>> Config.initShift) ||| (current &&& Config.initHighMask)

/-- The words that `k` iterations of INIT write, from `current` on: two steps of the recurrence for each. -/
def initWords : Nat → Word → List Word
  | 0, _ => []
  | k + 1, current => initWord current :: initWords k (lcgStep (lcgStep current))

theorem initWords_length (k : Nat) (current : Word) : (initWords k current).length = k := by
  induction k generalizing current with
  | zero => rfl
  | succ k ih => simp [initWords, ih]

/-- The array INIT(`seed`) leaves. Irreducible, as `twistArray`: proofs go by the words (Laws/Ops.lean), and no unifier
runs through 624 iterations. -/
@[irreducible] def initArray (seed : Word) : Vector Word Config.stateWords :=
  ⟨(initWords Config.stateWords seed).toArray, by simp [initWords_length]⟩

/-- INIT(`seed`): all 624 words and the cursor; the model's marker says that the array is now written (log 3). -/
def initGen (seed : Word) (s : State) : State :=
  { s with mt := initArray seed, cursor := 624, mtWritten := true }

/-- INIT, then `GEN_VALID <- 1` and the answer: the effect GINIT and GINITS share (R124, R125). -/
def startGen (seed : Word) (s : State) : State :=
  respond .done { initGen seed s with genValid := true }

/-! ### TWIST (R121) -/

/-- What iteration `i` of the twist writes, from the array as it stands then. -/
def twistWord (mt : Vector Word Config.stateWords) (i : Nat) : Word :=
  let y := (mtRead mt i &&& Config.upperMask) + (mtRead mt (i + 1) &&& Config.lowerMask)
  let t := mtRead mt (i + Config.twistOffset) ^^^ (y >>> 1)
  if y.getLsbD 0 then t ^^^ Config.matrix else t

/-- One iteration, in place. -/
def twistIter (mt : Vector Word Config.stateWords) (i : Nat) : Vector Word Config.stateWords :=
  mtWrite mt i (twistWord mt i)

/-- The iterations `i = 0, 1, …, 623`, ascending and in place: each reads what the earlier ones wrote. -/
@[irreducible] def twistArray (mt : Vector Word Config.stateWords) : Vector Word Config.stateWords :=
  (List.range Config.stateWords).foldl twistIter mt

/-- TWIST: the array re-mixed and the cursor at 0. -/
def twist (s : State) : State := { s with mt := twistArray s.mt, cursor := 0 }

/-! ### TEMPER (R122) and NEXT (R123) -/

/-- TEMPER(`y`). -/
def temper (y : Word) : Word :=
  let y := y ^^^ (y >>> Config.temperShift1)
  let y := y ^^^ ((y <<< Config.temperShift2) &&& Config.temperMask2)
  let y := y ^^^ ((y <<< Config.temperShift3) &&& Config.temperMask3)
  y ^^^ (y >>> Config.temperShift4)

/-- The twist that NEXT runs first, exactly when it finds `CURSOR >= 624` (90_conflicts.md C1). -/
def twistIfExhausted (s : State) : State :=
  if Config.stateWords ≤ s.cursor.toNat then twist s else s

/-- The word NEXT returns. -/
def nextWord (s : State) : Word :=
  temper (mtRead (twistIfExhausted s).mt (twistIfExhausted s).cursor.toNat)

/-- The state NEXT leaves. -/
def afterNext (s : State) : State :=
  { twistIfExhausted s with cursor := (twistIfExhausted s).cursor + 1 }

/-- The commands that need a keystream word: refused ST_UNINIT while GEN_VALID = 0, with no effect but ERRS (R188);
else they go on with NEXT's word and state. -/
def withKeystream (go : Word → State → State) (s : State) : State :=
  if s.genValid then go (nextWord s) (afterNext s) else refuse .uninit s

/-- The final group of `k` bytes (spec/42_cipher.md R153 to R155): one keystream word, then `GEN_VALID <- 0`, then the
low `k` bytes of the XOR. -/
def finalGroup (k : Fin 5) (v : Word) (s : State) : State :=
  withKeystream (fun w t => respond ⟨.ok, k, groupXor k.val v w⟩ { t with genValid := false }) s

/-! ### The hash unit -/

/-- One step of the fold: `a * 0x0002356F + c * 0x00001D35` (mod 2^32) (spec/40_hash.md R102, R105). -/
def foldChar (a c : Word) : Word := a * Config.hashMul + c * Config.hashAdd

/-- Both accumulators and both flags to 0: HCLR, a separator, and reset (R104, R105, R40). -/
def clearHash (s : State) : State := { s with accStem := 0, accFull := 0, dot := false, nz := false }

/-! ### Reset -/

/-- One clock edge with `rst = 1` (R40 to R45, spec/70_reset_and_hazards.md R215, R216): every register but MT takes its
reset value, no response is pending, and the words of MT are unspecified again (new free values, log 2). The parameter
SEP and what the host drives next are not the block's state (log 1, log 4). -/
def takeReset (s : State) : State :=
  { clearHash s with
    seed := 0
    mt := unspecifiedArray (s.freeCount + 1)
    cursor := 624
    genValid := false
    errs := false
    rsp := none
    mtWritten := false
    freeCount := s.freeCount + 1 }

/-! ### What the host drives next -/

/-- The host offers one more input, ahead of the others. -/
def State.offer (s : State) (e : HostInput) : State := { s with inputs := e :: s.inputs }

end Sys2Proof.Machine
end

