-- ==== Sys2Proof/Machine/Cipher.lean ====
section
/-! DEFINITION. The cipher's commands XORW, XORP1, XORP2, XORP3 (spec/42_cipher.md R152 to R155). -/

namespace Sys2Proof.Machine

/-- XORW `v` (R152): a full group; GEN_VALID stays 1. -/
def execXorw (v : Word) (s : State) : Outcome :=
  .next (withKeystream (fun w t => respond (.value (groupXor Config.groupBytes v w)) t) s)

/-- XORP1 `v` (R153): a final group of one byte. -/
def execXorp1 (v : Word) (s : State) : Outcome := .next (finalGroup 1 v s)

/-- XORP2 `v` (R154): a final group of two bytes. -/
def execXorp2 (v : Word) (s : State) : Outcome := .next (finalGroup 2 v s)

/-- XORP3 `v` (R155): a final group of three bytes. -/
def execXorp3 (v : Word) (s : State) : Outcome := .next (finalGroup 3 v s)

end Sys2Proof.Machine
end

