-- ==== Sys2Proof/Machine/Generator.lean ====
section
/-! DEFINITION. The generator's commands GINIT, GINITS, GNEXT (spec/41_generator.md R124 to R126). -/

namespace Sys2Proof.Machine

/-- GINIT `seed` (R124): every seed is accepted, on a valid generator too. -/
def execGinit (seed : Word) (s : State) : Outcome := .next (startGen seed s)

/-- GINITS (R125): as GINIT with the register SEED, which it does not change. -/
def execGinits (s : State) : Outcome := .next (startGen s.seed s)

/-- GNEXT (R126): refused ST_UNINIT while GEN_VALID = 0, else one keystream word. -/
def execGnext (s : State) : Outcome := .next (withKeystream (fun w t => respond (.value w) t) s)

end Sys2Proof.Machine
end

