-- ==== Sys2Proof/Machine/Hash.lean ====
section
/-! DEFINITION. The hash unit's commands HCLR, HCHR, HFIN (spec/40_hash.md R104 to R106). -/

namespace Sys2Proof.Machine

/-- HCLR (R104): the accumulators and `DOT`, `NZ` to 0; SEED and the generator are not touched. -/
def execHclr (s : State) : Outcome := .next (respond .done (clearHash s))

/-- What HCHR does with a code point that is no separator (R105): it folds into ACC_FULL, and, before the component's
first `.`, into ACC_STEM too; the first `.` only sets DOT. -/
def foldIn (c : Word) (s : State) : State :=
  let s := { s with accFull := foldChar s.accFull c }
  if s.dot then s
  else if c = Config.dotCp then { s with dot := true }
  else { s with accStem := foldChar s.accStem c, nz := true }

/-- HCHR's effect on the hash unit (R105): the separator test comes first and starts a new component. -/
def hashChar (c : Word) (s : State) : State := if s.isSep c then clearHash s else foldIn c s

/-- HCHR `c` (R105): never refused. -/
def execHchr (c : Word) (s : State) : Outcome := .next (respond .done (hashChar c s))

/-- The value HFIN finalises (R106): the stem's fold if the stem prefix is not empty, else the component's. -/
def finalSeed (s : State) : Word := if s.nz then s.accStem else s.accFull

/-- HFIN (R106): SEED takes that value, which is also the answer. -/
def execHfin (s : State) : Outcome := .next (respond (.value (finalSeed s)) { s with seed := finalSeed s })

end Sys2Proof.Machine
end

