-- ==== Sys2Proof/Machine/System.lean ====
section
/-! DEFINITION. The system command RDST (spec/43_system.md R170). -/

namespace Sys2Proof.Machine

/-- RDST (R170): the status view; no state is written, and it works before any initialisation. -/
def execRdst (s : State) : Outcome := .next (respond (.value s.status) s)

end Sys2Proof.Machine
end

