-- ==== Sys2Proof/Machine/Dispatch.lean ====
section
/-! DEFINITION. The meaning of every command of spec/30_encoding.md R76, one arm per constructor. -/

namespace Sys2Proof.Machine

def exec (i : Instr) (s : State) : Host.Outcome State Fault Refusal :=
  match i with
  | .hclr => Sys2Proof.Machine.execHclr s
  | .hchr c => Sys2Proof.Machine.execHchr c s
  | .hfin => Sys2Proof.Machine.execHfin s
  | .ginit seed => Sys2Proof.Machine.execGinit seed s
  | .ginits => Sys2Proof.Machine.execGinits s
  | .gnext => Sys2Proof.Machine.execGnext s
  | .xorw v => Sys2Proof.Machine.execXorw v s
  | .xorp1 v => Sys2Proof.Machine.execXorp1 v s
  | .xorp2 v => Sys2Proof.Machine.execXorp2 v s
  | .xorp3 v => Sys2Proof.Machine.execXorp3 v s
  | .rdst => Sys2Proof.Machine.execRdst s

end Sys2Proof.Machine
end

