-- ==== Sys2Proof/Machine/Command.lean ====
section
/-! DEFINITION. Running one input of the host: a command word (spec/30_encoding.md R79) or the reset input
(spec/70_reset_and_hazards.md R215). Step.lean and Ports.lean call these. -/

namespace Sys2Proof.Machine

/-- R79: a word that is no command is refused ST_ILLEGAL, before anything else is tested (spec/60_exceptions.md R187,
R191); any other executes its command's rule, which itself tests GEN_VALID. -/
def runCommand (w : PortWord) (s : State) : Outcome :=
  match decode w with
  | .ok i => exec i s
  | .error _ => .next (refuse .illegal s)

/-- One input: a command word, or a clock edge with `rst = 1`. -/
def runInput (e : HostInput) (s : State) : Outcome :=
  match e with
  | .command w => runCommand w s
  | .rst => .next (takeReset s)

/-- With nothing offered the block waits and nothing changes: it "never waits for anything but the host"
(spec/70_reset_and_hazards.md R234; log 4). -/
def waitForHost (s : State) : Outcome := .next s

/-- The state before a step, with the host putting the opcode table's word (bits numbered as there) on the command
channel next; a word that does not fit 40 bits is nothing the host could offer. -/
def offerTableWord (s : State) (nbits w : Nat) : State :=
  match tableWord? nbits w with
  | some cmd => s.offer (.command cmd)
  | none => s

end Sys2Proof.Machine
end

