-- ==== Sys2Proof/Machine/Step.lean ====
section
/-! DEFINITION. One step: the transaction of spec/00_scope.md R18, `(state, command word) -> (state', response word)`,
on the next input of the host. -/

namespace Sys2Proof.Machine

/-- One step: the oldest input of the host is taken and run; with none, the block waits. -/
def step (s : State) : Host.Outcome State Fault Refusal :=
  match s.inputs with
  | [] => waitForHost s
  | e :: rest => runInput e { s with inputs := rest }

/-- `s` with the command word of the opcode table's numbering offered next, so that the very next step runs it (log 4). -/
def State.withFetchWord (s : State) (nbits w : Nat) : State := offerTableWord s nbits w

end Sys2Proof.Machine
end

