-- ==== Sys2Proof/Machine/Ports.lean ====
section
/-! DEFINITION. The block at its ports (spec/30_encoding.md R70, R71): one clock edge at a time, with the transport
state of spec/10_state.md R34. A command executes as at the transaction level (`runCommand`); its writes land together,
on one edge between its acceptance and its response (R56). How many edges that takes is free, for each command word in each port state (log 6). -/

namespace Sys2Proof.Machine

/-- The input ports of R70. -/
structure PinsIn where
  rst : Bool
  cmdValid : Bool
  cmd : PortWord
  rspReady : Bool
deriving DecidableEq, Repr

/-- The output ports of R70. -/
structure PinsOut where
  cmdReady : Bool
  rspValid : Bool
  rsp : PortWord
deriving DecidableEq, Repr

/-- The transport state of R34: nothing in flight, a command in flight with the edges left before it executes, or a
response waiting to be taken (it is `rsp` of the core state). -/
inductive Phase where
  | idle
  | busy (w : PortWord) (left : Nat)
  | responding
deriving DecidableEq, Repr

/-- The block and its transport state; `ticks` counts the edges for the free values (log 6, log 18). -/
structure PortState where
  core : State
  phase : Phase
  ticks : Nat
deriving DecidableEq, Repr

/-- Right after reset nothing is in flight and nothing pending (R45). -/
def PortState.reset : PortState := ⟨State.reset, .idle, 0⟩

/-- The output ports: ready exactly when nothing is in flight, valid exactly when a response waits, and both 0 while
`rst = 1` (R71, R216). `rsp` shows a free value while it is not valid (U7, log 18). -/
def pinsOut (i : PinsIn) (p : PortState) : PinsOut where
  cmdReady := !i.rst && decide (p.phase = .idle)
  rspValid := !i.rst && decide (p.phase = .responding)
  rsp :=
    if i.rst = false ∧ p.phase = .responding then
      match p.core.rsp with
      | some r => r.word
      | none => Config.idleRsp (i, p)
    else Config.idleRsp (i, p)

/-- The state after a command has executed at the ports. -/
def executed (o : Outcome) (p : PortState) : Host.Outcome PortState Fault Refusal :=
  match o with
  | .next t => .next { p with core := t, phase := .responding }
  | .fault r => .fault r
  | .refused r => .refused r

/-- One rising edge of `clk`. Reset wins over everything, and a command in flight is abandoned (R195, R215). -/
def clockEdge (i : PinsIn) (p : PortState) : Host.Outcome PortState Fault Refusal :=
  let q := { p with ticks := p.ticks + 1 }
  if i.rst then .next { q with core := takeReset p.core, phase := .idle }
  else
    match p.phase with
    | .idle => .next (if i.cmdValid then { q with phase := .busy i.cmd (Config.latency i.cmd p) } else q)
    | .busy w (n + 1) => .next { q with phase := .busy w n }
    | .busy w 0 => executed (runCommand w p.core) q
    | .responding => .next (if i.rspReady then { q with phase := .idle } else q)

/-- The command word this edge accepts: `cmd_valid`, `cmd_ready` and not `rst` (R71). -/
def acceptedAt (i : PinsIn) (p : PortState) : List PortWord :=
  if i.cmdValid && (pinsOut i p).cmdReady then [i.cmd] else []

/-- The response word this edge delivers: `rsp_valid`, `rsp_ready` and not `rst` (R71). -/
def deliveredAt (i : PinsIn) (p : PortState) : List PortWord :=
  if (pinsOut i p).rspValid && i.rspReady then [(pinsOut i p).rsp] else []

/-- What a run of clock edges leaves: the last state, the words accepted and the words delivered, in order. -/
structure ClockTrace where
  last : PortState
  accepted : List PortWord
  delivered : List PortWord
deriving DecidableEq, Repr

/-- A run of clock edges. -/
def clockRun : List PinsIn → PortState → Option ClockTrace
  | [], p => some ⟨p, [], []⟩
  | i :: is, p =>
    match clockEdge i p with
    | .next q =>
      (clockRun is q).map fun tr => ⟨tr.last, acceptedAt i p ++ tr.accepted, deliveredAt i p ++ tr.delivered⟩
    | .fault _ => none
    | .refused _ => none

end Sys2Proof.Machine
end

