-- ==== Sys2Proof/Machine/Reference.lean ====
section
/-! DEFINITION. The reference functions the commands compute, over finite lists (spec/00_scope.md R17):
component, stem, fold, derive_seed (spec/40_hash.md R100 to R103), keystream (spec/41_generator.md R130) and transform
(spec/42_cipher.md R150). The hash functions are over natural numbers, as R17 has names, and share nothing with the
hash unit's own arithmetic. -/

namespace Sys2Proof.Machine

/-- `component(s)`: what follows the last separator, all of `s` if there is none (R100). -/
def component (sep : Nat → Bool) (s : List Nat) : List Nat := (s.reverse.takeWhile fun c => !sep c).reverse

/-- The component up to its first `.`, the whole of it if it has none. -/
def beforeDot (t : List Nat) : List Nat := t.takeWhile fun c => c != Config.dotCp.toNat

/-- `stem(t)`: `t` without a dot is its own stem, and so is a `t` that starts with one (R101, 90_conflicts.md C7). -/
def stem (t : List Nat) : List Nat :=
  if Config.dotCp.toNat ∈ t then (if beforeDot t = [] then t else beforeDot t) else t

/-- `step(a, c)` of R102. -/
def foldStep (a c : Nat) : Nat := (a * Config.hashMul.toNat + c * Config.hashAdd.toNat) % 2 ^ 32

/-- `fold(u)`, left to right from 0 (R102). -/
def fold (u : List Nat) : Nat := u.foldl foldStep 0

/-- `derive_seed(s) = fold(stem(component(s)))` (R103). -/
def deriveSeed (sep : Nat → Bool) (s : List Nat) : Nat := fold (stem (component sep s))

/-- The initialised array after `k` twists. -/
def twistedArray (seed : Word) : Nat → Vector Word Config.stateWords
  | 0 => initArray seed
  | k + 1 => twistArray (twistedArray seed k)

/-- Word `j` of the keystream: TEMPER of word `j mod 624` after `floor(j/624) + 1` twists (R130). -/
def keystreamWord (seed : Word) (j : Nat) : Word :=
  temper (mtRead (twistedArray seed (j / Config.stateWords + 1)) (j % Config.stateWords))

/-- `keystream(seed, n)` (R130). -/
def keystream (seed : Word) (n : Nat) : List Word := (List.range n).map (keystreamWord seed)

/-- `transform(s, seed)`: byte `p` meets byte `p mod 4` of word `floor(p/4)` (R150). -/
def transform (s : List Byte) (seed : Word) : List Byte :=
  s.mapIdx fun p b => b ^^^ byteOf (keystreamWord seed (p / Config.groupBytes)) (p % Config.groupBytes)

end Sys2Proof.Machine
end

