-- ==== Sys2Proof/Machine/Run.lean ====
section
/-! DEFINITION. A host driving the block through `step`: inputs one after another, the responses collected in order
(spec/00_scope.md R18, spec/20_memory.md R59). -/

namespace Sys2Proof.Machine

/-- The host offers the inputs one by one, each when the step before it is done: the last state and the responses in
order, one for each command and none for a reset. `none` where a step does not go on. -/
def session : List HostInput → State → Option (State × List Response)
  | [], s => some (s, [])
  | e :: es, s =>
    match step (s.offer e) with
    | .next t => (session es t).map fun (u, rs) => (u, t.rsp.toList ++ rs)
    | .fault _ => none
    | .refused _ => none

/-- The inputs that offer these commands' words. -/
def commands (is : List Instr) : List HostInput := is.map fun i => .command (encode i)

/-- The result bytes of a list of responses, concatenated in order (spec/42_cipher.md R160). -/
def responseBytes (rs : List Response) : List Byte := rs.flatMap Response.bytes

end Sys2Proof.Machine
end

