-- ==== Sys2Proof/Machine/Script.lean ====
section
/-! DEFINITION. Command scripts: the pseudo-commands of spec/30_encoding.md R81 and the line syntax of R80. -/

namespace Sys2Proof.Machine

/-! ### Pseudo-commands (R81) -/

/-- `HASH "s"`: HCLR, one HCHR for each code point, HFIN. -/
def hashScript (name : List Word) : List Instr := .hclr :: name.map .hchr ++ [.hfin]

/-- `KEY "s"`: HASH, then GINITS. -/
def keyScript (name : List Word) : List Instr := hashScript name ++ [.ginits]

/-- `KS n`: GNEXT `n` times. -/
def ksScript (n : Nat) : List Instr := List.replicate n .gnext

/-- `XORS b0 b1 …`: XORW for each full group, then one XORP for a short tail. R81 gives an empty stream no expansion;
here it is the empty list, and every statement about a stream asks for at least one byte. -/
def xorsScript : List Byte → List Instr
  | [] => []
  | [b0] => [.xorp1 (groupOf [b0])]
  | [b0, b1] => [.xorp2 (groupOf [b0, b1])]
  | [b0, b1, b2] => [.xorp3 (groupOf [b0, b1, b2])]
  | b0 :: b1 :: b2 :: b3 :: rest => .xorw (groupOf [b0, b1, b2, b3]) :: xorsScript rest

/-! ### The line syntax (R80; what it leaves open: log 17) -/

/-- A digit of base `base`, with the letters `a` to `f` and `A` to `F` above 9. -/
def digit? (base : Nat) (c : Char) : Option Nat :=
  let v :=
    if 48 ≤ c.toNat ∧ c.toNat ≤ 57 then c.toNat - 48
    else if 97 ≤ c.toNat ∧ c.toNat ≤ 102 then c.toNat - 87
    else if 65 ≤ c.toNat ∧ c.toNat ≤ 70 then c.toNat - 55
    else base
  if v < base then some v else none

/-- Digits of base `base`, most significant first, after the value `acc`. -/
def digits? (base : Nat) : Nat → List Char → Option Nat
  | acc, [] => some acc
  | acc, c :: cs =>
    match digit? base c with
    | some d => digits? base (acc * base + d) cs
    | none => none

/-- An operand: a number in decimal or in hex (`0x…`), or one character in single quotes for its code point. -/
def operand? : List Char → Option Nat
  | ['\'', c, '\''] => some c.toNat
  | '0' :: 'x' :: d :: ds => digits? 16 0 (d :: ds)
  | d :: ds => digits? 10 0 (d :: ds)
  | [] => none

/-- The tokens read so far, with the one being read (reversed) closed. -/
def closeToken (tok : List Char) (rest : List (List Char)) : List (List Char) :=
  if tok = [] then rest else tok.reverse :: rest

/-- The tokens of a line: separated by blanks; `#` starts a comment, `->` the expected response; `tok` is the token
being read, reversed. -/
def tokens (tok : List Char) : List Char → List (List Char)
  | [] => closeToken tok []
  | '\'' :: c :: '\'' :: cs => closeToken tok (['\'', c, '\''] :: tokens [] cs)
  | '#' :: _ => closeToken tok []
  | '-' :: '>' :: _ => closeToken tok []
  | ' ' :: cs => closeToken tok (tokens [] cs)
  | '\t' :: cs => closeToken tok (tokens [] cs)
  | c :: cs => tokens (c :: tok) cs

/-- A byte operand. -/
def byte? (n : Nat) : Option Byte := if n < 2 ^ 8 then some (BitVec.ofNat 8 n) else none

/-- A 32-bit operand. -/
def word? (n : Nat) : Option Word := if n < 2 ^ 32 then some (BitVec.ofNat 32 n) else none

/-- The command of a mnemonic of R76 and its operands: none for format N, one for W, `k` bytes in stream order for P. -/
def assemble? : List Char → List Nat → Option Instr
  | ['H', 'C', 'L', 'R'], [] => some .hclr
  | ['H', 'C', 'H', 'R'], [c] => (word? c).map .hchr
  | ['H', 'F', 'I', 'N'], [] => some .hfin
  | ['G', 'I', 'N', 'I', 'T'], [n] => (word? n).map .ginit
  | ['G', 'I', 'N', 'I', 'T', 'S'], [] => some .ginits
  | ['G', 'N', 'E', 'X', 'T'], [] => some .gnext
  | ['X', 'O', 'R', 'W'], [v] => (word? v).map .xorw
  | ['X', 'O', 'R', 'P', '1'], [b0] => (byte? b0).map fun b0 => .xorp1 (groupOf [b0])
  | ['X', 'O', 'R', 'P', '2'], [b0, b1] => do return .xorp2 (groupOf [← byte? b0, ← byte? b1])
  | ['X', 'O', 'R', 'P', '3'], [b0, b1, b2] => do return .xorp3 (groupOf [← byte? b0, ← byte? b1, ← byte? b2])
  | ['R', 'D', 'S', 'T'], [] => some .rdst
  | _, _ => none

/-- The command of one script line. -/
def parseLine? (line : List Char) : Option Instr :=
  match tokens [] line with
  | [] => none
  | m :: ops => (ops.mapM operand?).bind (assemble? m)

/-- "Each line assembles to one command word" (R80). -/
def assembleLine? (line : List Char) : Option PortWord := (parseLine? line).map encode

end Sys2Proof.Machine
end

