-- ==== Sys2Proof/Safety.lean ====
section
/-! DEFINITION. What counts as a safe run, in the terms the statements use: a well-formed response (spec/30_encoding.md
R73), the invariants of spec/10_state.md R35, the history that R35 (c) speaks of, and the two agreements of states that
the noninterference statements compare (R43, R30). -/

namespace Sys2Proof.Machine

/-- R73: a refusal carries no data, and the data bytes beyond the `n` valid ones are 0. -/
def Response.wf (r : Response) : Prop :=
  (r.st ≠ .ok → r.n = 0) ∧ r.data.toNat < 2 ^ (8 * r.n.val)

/-- R35 (a), (b), (d), and that a pending response is well formed. -/
structure State.Inv (s : State) : Prop where
  /-- R35 (a): `0 <= CURSOR <= 624`. -/
  cursor_le : s.cursor.toNat ≤ Config.stateWords
  /-- R35 (b): a valid generator's array has been written by an initialisation since reset (the marker of log 3). -/
  valid_written : s.genValid = true → s.mtWritten = true
  /-- R35 (d): before the first dot both accumulators are equal. -/
  accs_eq : s.dot = false → s.accStem = s.accFull
  /-- R73. -/
  rsp_wf : ∀ r, s.rsp = some r → r.wf

/-- What one input does to the code points hashed since the last clearing of the accumulators (R35 (c)): reset, HCLR
and a separator clear them, any other code point of an HCHR is appended. -/
def hashedStep (isSep : Word → Bool) (t : List Word) : HostInput → List Word
  | .rst => []
  | .command w =>
    match decode w with
    | .ok .hclr => []
    | .ok (.hchr c) => if isSep c then [] else t ++ [c]
    | _ => t

/-- The code points hashed since the last clearing, after a list of inputs, from `t` on. -/
def hashedSince (isSep : Word → Bool) (t : List Word) (es : List HostInput) : List Word :=
  es.foldl (hashedStep isSep) t

/-- Everything but the words of an array that is not valid is equal: those words are unspecified after reset, and no
command may let the host see them (R43). -/
def SameButUnreadMt (s t : State) : Prop :=
  t = { s with mt := t.mt } ∧ (s.genValid = true → t.mt = s.mt)

/-- Everything but ERRS and the last response is equal: what a refusal changes (R189, R194). -/
def SameButRefusal (s t : State) : Prop := t = { s with errs := t.errs, rsp := t.rsp }

/-- The input is not a well-formed RDST, the one command that shows ERRS (R201). -/
def notStatusRead (e : HostInput) : Prop := ∀ w, e = .command w → decode w ≠ .ok .rdst

end Sys2Proof.Machine
end

