-- ==== Sys2Proof/Certificates/Slice0/Obligations.lean ====
section
/-! DEFINITION. The statements for the provers, in the order of OBLIGATIONS.json. Each docstring names the rules of
spec/ it rests on. Literals are the spec's own figures, so that a wrong value of Config makes a statement false. -/

namespace Sys2Proof

/-- The commands that need a keystream word (R188). -/
def Instr.consumes : Instr → Bool
  | .gnext | .xorw _ | .xorp1 _ | .xorp2 _ | .xorp3 _ => true
  | .hclr | .hchr _ | .hfin | .ginit _ | .ginits | .rdst => false

/-- The commands whose answers the generator alone decides: those that consume a word, and GINIT. -/
def Instr.ofGenerator (i : Instr) : Bool := i.consumes || (match i with | .ginit _ => true | _ => false)

end Sys2Proof

namespace Sys2Proof.Machine

/-- The word `w`, offered next in any state, is run as the command `i`. -/
def RunsAs (w : PortWord) (i : Instr) : Prop :=
  ∀ s rest, s.inputs = .command w :: rest → step s = exec i { s with inputs := rest }

/-- The word `w`, offered next in any state, is refused ST_ILLEGAL: `ERRS <- 1`, the answer `{1, 0, 0}`, and nothing
else (spec/60_exceptions.md R187). -/
def RefusedIllegal (w : PortWord) : Prop :=
  ∀ s rest, s.inputs = .command w :: rest →
    step s = .next { s with inputs := rest, errs := true, rsp := some ⟨.illegal, 0, 0⟩ }

/-- What `ST_UNINIT` does (R188): `ERRS <- 1`, the answer `{2, 0, 0}`, and nothing else. -/
def RefusedUninit (i : Instr) : Prop :=
  ∀ s, s.genValid = false → exec i s = .next { s with errs := true, rsp := some ⟨.uninit, 0, 0⟩ }

/-- R77's three kinds of illegal words. -/
def illegalWord (w : PortWord) : Prop :=
  opField w ∉ ([0x01, 0x02, 0x03, 0x10, 0x11, 0x12, 0x20, 0x21, 0x22, 0x23, 0x30] : List (BitVec 8)) ∨
  (opField w ∈ ([0x01, 0x03, 0x11, 0x12, 0x30] : List (BitVec 8)) ∧ w.extractLsb' 0 32 ≠ 0) ∨
  (opField w = 0x21 ∧ w.extractLsb' 8 24 ≠ 0) ∨
  (opField w = 0x22 ∧ w.extractLsb' 16 16 ≠ 0) ∨
  (opField w = 0x23 ∧ w.extractLsb' 24 8 ≠ 0)

/-- The input is the word of a GINIT or GINITS. -/
def initialises (e : HostInput) : Prop :=
  ∃ w, e = .command w ∧ (decode w = .ok .ginits ∨ ∃ seed, decode w = .ok (.ginit seed))

/-- SEP as a test on natural numbers. -/
def State.sepNat (s : State) (c : Nat) : Bool := s.isSep (BitVec.ofNat 32 c)

/-- A name as the list of natural numbers it is (spec/00_scope.md R17). -/
def codePoints (name : List Word) : List Nat := name.map BitVec.toNat

/-- One step of the twist on the words it reads (spec/41_generator.md R121): `upper` gives bit 31 of `y`, `lower` the
other bits, `mixed` the word XORed in. -/
def twistFormula (upper lower mixed : Word) : Word :=
  let y := (upper &&& 0x80000000#32) + (lower &&& 0x7FFFFFFF#32)
  if y.getLsbD 0 = true then mixed ^^^ (y >>> 1) ^^^ 0x9908B0DF#32 else mixed ^^^ (y >>> 1)

/-- The rule that R153, R154 and R155 state for `k` = 1, 2, 3: `op` the operation code, `mk` the command. -/
def FinalGroupRule (k : Fin 5) (op : BitVec 8) (mk : Word → Instr) (mask : Word) : Prop :=
  (∀ arg : Word, arg.toNat < 2 ^ (8 * k.val) → RunsAs (op ++ arg) (mk arg)) ∧
  (∀ arg : Word, 2 ^ (8 * k.val) ≤ arg.toNat → RefusedIllegal (op ++ arg)) ∧
  (∀ v s, s.genValid = true →
    exec (mk v) s =
      .next { afterNext s with genValid := false, rsp := some ⟨.ok, k, (v ^^^ nextWord s) &&& mask⟩ }) ∧
  (∀ v, RefusedUninit (mk v))

end Sys2Proof.Machine

open Sys2Proof Sys2Proof.Machine

/-! ### Encoding -/

/-- Words written out from spec/30_encoding.md R72, R76, R80 and the programs of 95_test_vectors.md. -/
def Obligations.SpecWordsDecodeToTheirCommands : Prop :=
  decode 0x0100000000 = .ok .hclr ∧ decode 0x0200000061 = .ok (.hchr 97) ∧ decode 0x0300000000 = .ok .hfin ∧
  decode 0x10000B1115 = .ok (.ginit 0x000B1115) ∧ decode 0x1100000000 = .ok .ginits ∧
  decode 0x1200000000 = .ok .gnext ∧ decode 0x2044434241 = .ok (.xorw 0x44434241) ∧
  decode 0x2100000048 = .ok (.xorp1 0x48) ∧ decode 0x2200006548 = .ok (.xorp2 0x6548) ∧
  decode 0x2300474645 = .ok (.xorp3 0x474645) ∧ decode 0x3000000000 = .ok .rdst

/-- R76: a word selects a row when `cmd & mask = match`; it then decodes to that row's command and operand, and no word
decodes to anything else. -/
def Obligations.DecodeFollowsTheOpcodeMap : Prop :=
  ∀ w : PortWord,
    (decode w = .ok .hclr ↔ w &&& 0xFFFFFFFFFF = 0x0100000000) ∧
    (∀ c, decode w = .ok (.hchr c) ↔ w &&& 0xFF00000000 = 0x0200000000 ∧ c = w.setWidth 32) ∧
    (decode w = .ok .hfin ↔ w &&& 0xFFFFFFFFFF = 0x0300000000) ∧
    (∀ seed, decode w = .ok (.ginit seed) ↔ w &&& 0xFF00000000 = 0x1000000000 ∧ seed = w.setWidth 32) ∧
    (decode w = .ok .ginits ↔ w &&& 0xFFFFFFFFFF = 0x1100000000) ∧
    (decode w = .ok .gnext ↔ w &&& 0xFFFFFFFFFF = 0x1200000000) ∧
    (∀ v, decode w = .ok (.xorw v) ↔ w &&& 0xFF00000000 = 0x2000000000 ∧ v = w.setWidth 32) ∧
    (∀ v, decode w = .ok (.xorp1 v) ↔ w &&& 0xFFFFFFFF00 = 0x2100000000 ∧ v = (w.setWidth 8).setWidth 32) ∧
    (∀ v, decode w = .ok (.xorp2 v) ↔ w &&& 0xFFFFFF0000 = 0x2200000000 ∧ v = (w.setWidth 16).setWidth 32) ∧
    (∀ v, decode w = .ok (.xorp3 v) ↔ w &&& 0xFFFF000000 = 0x2300000000 ∧ v = (w.setWidth 24).setWidth 32) ∧
    (decode w = .ok .rdst ↔ w &&& 0xFFFFFFFFFF = 0x3000000000)

/-- R77, R187: a word of one of the three kinds is refused ST_ILLEGAL in every state, and every other word is a
command. -/
def Obligations.IllegalWordsAreExactlyTheRefusedOnes : Prop :=
  ∀ w, (illegalWord w → RefusedIllegal w) ∧ (¬ illegalWord w → ∃ i, decode w = .ok i)

/-- Decoding what is encoded gives it back, for every well-formed command and operand. -/
def Obligations.DecodeOfEncodeIsTheCommand : Prop := ∀ i : Instr, i.wf = true → decode (encode i) = .ok i

/-- A word that decodes has no second meaning and no ignored bit: its command is well formed and encodes to it. -/
def Obligations.EncodeOfDecodeIsTheWord : Prop := ∀ w i, decode w = .ok i → i.wf = true ∧ encode i = w

/-! ### The step -/

/-- R18, R79: a step takes the oldest input, and a word that decodes runs as its command, in the state without that
input. -/
def Obligations.StepRunsTheDecodedCommand : Prop := ∀ w i, decode w = .ok i → RunsAs w i

/-- The model's choice (log 4): with nothing offered a step changes nothing. -/
def Obligations.StepWithoutInputWaits : Prop := ∀ s : State, s.inputs = [] → step s = .next s

/-- R189 and R73's first sentences: every offered word is answered; a refusal sets ERRS and answers, and nothing else;
an executed command leaves ERRS as it was. -/
def Obligations.EveryCommandIsAnswered : Prop :=
  ∀ s w rest, s.inputs = .command w :: rest →
    ∃ t r, step s = .next t ∧ t.inputs = rest ∧ t.rsp = some r ∧
      (r.st = .ok → t.errs = s.errs) ∧
      (r.st ≠ .ok → t = { s with inputs := rest, errs := true, rsp := some r })

/-- R73: the fields of the response word, and what they hold for every answer a step gives. -/
def Obligations.ResponseWordsHaveTheirFormat : Prop :=
  (∀ r : Response,
    r.word.extractLsb' 36 4 = (match r.st with | .ok => 0 | .illegal => 1 | .uninit => 2) ∧
    (r.word.extractLsb' 32 4).toNat = r.n.val ∧ r.word.extractLsb' 0 32 = r.data) ∧
  ∀ s w rest t r, s.inputs = .command w :: rest → step s = .next t → t.rsp = some r →
    (r.st ≠ .ok → r.n = 0 ∧ r.data = 0) ∧
    (∀ i, r.n.val ≤ i → i < 4 → r.data.extractLsb' (8 * i) 8 = 0)

/-! ### Reset -/

/-- R40, R41, R42, R44, with R45's "no response is pending": what the input `rst` does in any state. What it leaves in
MT is not said (R43). The model's choices in it: SEP stays (log 1), the reset counter may change (log 2), the marker of
a written array is cleared (log 3), and the host's other inputs stay (log 4). -/
def Obligations.RstTakesTheResetState : Prop :=
  (∀ s rest, s.inputs = .rst :: rest →
    ∃ m n, step s = .next { s with
      accStem := 0, accFull := 0, dot := false, nz := false, seed := 0, mt := m, cursor := 624, genValid := false,
      errs := false, rsp := none, inputs := rest, mtWritten := false, freeCount := n }) ∧
  ∀ sep, deriveSeed sep [] = 0

/-- R40, R42, R44 and R32's value of STATUS: the state after reset. -/
def Obligations.ResetStateHasTheResetValues : Prop :=
  State.reset.accStem = 0 ∧ State.reset.accFull = 0 ∧ State.reset.dot = false ∧ State.reset.nz = false ∧
  State.reset.seed = 0 ∧ State.reset.cursor = 624 ∧ State.reset.genValid = false ∧ State.reset.errs = false ∧
  State.reset.rsp = none ∧ State.reset.status = 0x00002700

/-! ### The hash unit -/

/-- R104. -/
def Obligations.HclrClearsTheHashUnit : Prop :=
  RunsAs 0x0100000000 .hclr ∧
  (∀ arg : Word, arg ≠ 0 → RefusedIllegal (0x01#8 ++ arg)) ∧
  ∀ s, exec .hclr s =
    .next { s with accStem := 0, accFull := 0, dot := false, nz := false, rsp := some ⟨.ok, 0, 0⟩ }

/-- R105, in its own order: separator, then ACC_FULL, then the first dot, then ACC_STEM; and SEP(0x2E) is false. -/
def Obligations.HchrHashesOneCharacter : Prop :=
  (∀ c : Word, RunsAs (0x02#8 ++ c) (.hchr c)) ∧
  (∀ s : State, s.isSep 0x2E = false) ∧
  ∀ s c,
    (s.isSep c = true → exec (.hchr c) s =
      .next { s with accStem := 0, accFull := 0, dot := false, nz := false, rsp := some ⟨.ok, 0, 0⟩ }) ∧
    (s.isSep c = false → s.dot = true → exec (.hchr c) s =
      .next { s with accFull := s.accFull * 0x0002356F#32 + c * 0x00001D35#32, rsp := some ⟨.ok, 0, 0⟩ }) ∧
    (s.dot = false → c = 0x2E → exec (.hchr c) s =
      .next { s with accFull := s.accFull * 0x0002356F#32 + c * 0x00001D35#32, dot := true, rsp := some ⟨.ok, 0, 0⟩ }) ∧
    (s.isSep c = false → s.dot = false → c ≠ 0x2E → exec (.hchr c) s =
      .next { s with
        accFull := s.accFull * 0x0002356F#32 + c * 0x00001D35#32
        accStem := s.accStem * 0x0002356F#32 + c * 0x00001D35#32
        nz := true, rsp := some ⟨.ok, 0, 0⟩ })

/-- R106. -/
def Obligations.HfinFinalisesTheSeed : Prop :=
  RunsAs 0x0300000000 .hfin ∧
  (∀ arg : Word, arg ≠ 0 → RefusedIllegal (0x03#8 ++ arg)) ∧
  ∀ s,
    (s.nz = true → exec .hfin s = .next { s with seed := s.accStem, rsp := some ⟨.ok, 4, s.accStem⟩ }) ∧
    (s.nz = false → exec .hfin s = .next { s with seed := s.accFull, rsp := some ⟨.ok, 4, s.accFull⟩ })

/-- R100 to R103: the reference functions, by the properties those rules give them. -/
def Obligations.ReferenceHashFollowsItsRules : Prop :=
  (∀ sep s, (∀ c ∈ s, sep c = false) → component sep s = s) ∧
  (∀ sep a p b, sep p = true → (∀ c ∈ b, sep c = false) → component sep (a ++ p :: b) = b) ∧
  (∀ t, 0x2E ∉ t → stem t = t) ∧
  (∀ u v, 0x2E ∉ u → u ≠ [] → stem (u ++ 0x2E :: v) = u) ∧
  (∀ v, stem (0x2E :: v) = 0x2E :: v) ∧
  (∀ sep, component sep [] = [] ∧ deriveSeed sep [] = 0) ∧
  fold [] = 0 ∧
  (∀ u c, fold (u ++ [c]) = (fold u * 0x0002356F + c * 0x00001D35) % 2 ^ 32) ∧
  ∀ sep s, deriveSeed sep s = fold (stem (component sep s))

/-- R103's consequence: what follows the first dot of a non-empty stem does not change the seed. -/
def Obligations.SeedIgnoresWhatFollowsTheFirstDot : Prop :=
  ∀ sep u v, sep 0x2E = false → (∀ c ∈ u ++ v, sep c = false) → 0x2E ∉ u → u ≠ [] →
    deriveSeed sep (u ++ 0x2E :: v) = deriveSeed sep u

/-- R35 (c), (d), with R21 to R24: after any inputs from a cleared unit, the accumulators and flags are those of the
code points hashed since the last clearing, by the reference's fold. -/
def Obligations.HashUnitHoldsTheCodePointsSinceItsClearing : Prop :=
  ∀ es s, s.accStem = 0 → s.accFull = 0 → s.dot = false → s.nz = false →
    ∃ t rs, session es s = some (t, rs) ∧
      t.accFull.toNat = fold (codePoints (hashedSince s.isSep [] es)) ∧
      t.accStem.toNat = fold (beforeDot (codePoints (hashedSince s.isSep [] es))) ∧
      t.dot = decide (0x2E ∈ codePoints (hashedSince s.isSep [] es)) ∧
      t.nz = decide (beforeDot (codePoints (hashedSince s.isSep [] es)) ≠ [])

/-- R107: `HASH "s"` from any state computes `derive_seed(s)`, for every SEP; from a cleared unit without the HCLR. -/
def Obligations.HashComputesDeriveSeed : Prop :=
  ∀ s name,
    (∃ t rs, session (commands (hashScript name)) s = some (t, rs) ∧
      t.seed.toNat = deriveSeed s.sepNat (codePoints name) ∧
      rs = List.replicate (name.length + 1) ⟨.ok, 0, 0⟩ ++ [⟨.ok, 4, t.seed⟩] ∧
      t.mt = s.mt ∧ t.cursor = s.cursor ∧ t.genValid = s.genValid ∧ t.errs = s.errs) ∧
    (s.accStem = 0 → s.accFull = 0 → s.dot = false → s.nz = false →
      ∃ t rs, session (commands (name.map .hchr ++ [.hfin])) s = some (t, rs) ∧
        t.seed.toNat = deriveSeed s.sepNat (codePoints name) ∧
        rs = List.replicate name.length ⟨.ok, 0, 0⟩ ++ [⟨.ok, 4, t.seed⟩])

/-! ### The generator -/

/-- R120: every word of the array, by the closed form that R120 itself derives from its pseudocode, the cursor, and
nothing else of the spec's state. The marker `mtWritten` being set is the model's choice (log 3). -/
def Obligations.InitFillsTheArray : Prop :=
  ∀ seed s,
    initGen seed s = { s with mt := (initGen seed s).mt, cursor := 624, mtWritten := true } ∧
    ∀ i, i < 624 →
      mtRead (initGen seed s).mt i =
        (((fun x : Word => x * 69069#32 + 1#32)^[2 * i + 1] seed) >>> 16) |||
          (((fun x : Word => x * 69069#32 + 1#32)^[2 * i] seed) &&& 0xFFFF0000#32)

/-- R121: in place and ascending. Old words are mixed in for `i` = 0 to 226, words this twist has rewritten from 227
on, and iteration 623 reads the rewritten word 0. -/
def Obligations.TwistRewritesTheArrayInPlace : Prop :=
  ∀ s,
    twist s = { s with mt := (twist s).mt, cursor := 0 } ∧
    ∀ i, i < 624 →
      mtRead (twist s).mt i =
        twistFormula (mtRead s.mt i)
          (if i = 623 then mtRead (twist s).mt 0 else mtRead s.mt (i + 1))
          (if i < 227 then mtRead s.mt (i + 397) else mtRead (twist s).mt (i - 227))

/-- R122: the four lines, its four values, and its remark that TEMPER is a bijection. -/
def Obligations.TemperMixesByItsFourLines : Prop :=
  (∀ y y1 y2 y3 : Word, y1 = y ^^^ (y >>> 11) → y2 = y1 ^^^ ((y1 <<< 7) &&& 0x9D2C5680#32) →
    y3 = y2 ^^^ ((y2 <<< 15) &&& 0xEFC60000#32) → temper y = y3 ^^^ (y3 >>> 18)) ∧
  temper 0 = 0 ∧ temper 1 = 0x00400091#32 ∧ temper 0x80000000#32 = 0x88102204#32 ∧
  temper 0xFFFFFFFF#32 = 0x6FE01BF8#32 ∧
  Function.Bijective temper

/-- R123: the lazy twist at `CURSOR >= 624`, the word read, the cursor's advance. -/
def Obligations.NextReadsAtTheCursor : Prop :=
  ∀ s,
    (s.cursor.toNat < 624 →
      nextWord s = temper (mtRead s.mt s.cursor.toNat) ∧ afterNext s = { s with cursor := s.cursor + 1 }) ∧
    (624 ≤ s.cursor.toNat →
      nextWord s = temper (mtRead (twist s).mt 0) ∧ afterNext s = { s with mt := (twist s).mt, cursor := 1 })

/-- R124: INIT(arg), then `GEN_VALID <- 1`. -/
def Obligations.GinitStartsTheGenerator : Prop :=
  (∀ seed : Word, RunsAs (0x10#8 ++ seed) (.ginit seed)) ∧
  ∀ seed s, exec (.ginit seed) s = .next { initGen seed s with genValid := true, rsp := some ⟨.ok, 0, 0⟩ }

/-- R125: INIT(SEED), then `GEN_VALID <- 1`; the same as GINIT of SEED. -/
def Obligations.GinitsStartsFromTheSeedRegister : Prop :=
  RunsAs 0x1100000000 .ginits ∧
  (∀ arg : Word, arg ≠ 0 → RefusedIllegal (0x11#8 ++ arg)) ∧
  ∀ s, exec .ginits s = .next { initGen s.seed s with genValid := true, rsp := some ⟨.ok, 0, 0⟩ } ∧
    exec .ginits s = exec (.ginit s.seed) s

/-- R126. -/
def Obligations.GnextReadsOneKeystreamWord : Prop :=
  RunsAs 0x1200000000 .gnext ∧
  (∀ arg : Word, arg ≠ 0 → RefusedIllegal (0x12#8 ++ arg)) ∧
  (∀ s, s.genValid = true → exec .gnext s = .next { afterNext s with rsp := some ⟨.ok, 4, nextWord s⟩ }) ∧
  RefusedUninit .gnext

/-- R130: `n` words read after an initialisation are `keystream(seed, n)`, word `j` being TEMPER of word `j mod 624` of
the array after `floor(j/624) + 1` twists; there is no end of the stream. -/
def Obligations.GnextReadsTheKeystream : Prop :=
  ∀ s seed n,
    (keystream seed n = (List.range n).map fun j =>
      temper (mtRead (twistArray^[j / 624 + 1] (initArray seed)) (j % 624))) ∧
    ∃ t, session (commands (.ginit seed :: ksScript n)) s =
        some (t, ⟨.ok, 0, 0⟩ :: (keystream seed n).map fun w => ⟨.ok, 4, w⟩) ∧
      t.genValid = true

/-- R131: after a GINIT with the same seed, the same GINIT, GNEXT and cipher commands get the same answers, whatever
the states before it. -/
def Obligations.SameSeedGivesTheSameAnswers : Prop :=
  ∀ is seed s s', (∀ i ∈ is, i.ofGenerator = true ∧ i.wf = true) →
    ∃ t t' rs, session (commands (.ginit seed :: is)) s = some (t, rs) ∧
      session (commands (.ginit seed :: is)) s' = some (t', rs) ∧
      t.mt = t'.mt ∧ t.cursor = t'.cursor ∧ t.genValid = t'.genValid

/-- R120's and R133's figures for two seeds, 0 and 0xFFFFFFFF; `InitFillsTheArray` is the statement for every seed. -/
def Obligations.SeedsZeroAndAllOnesGiveTheirFirstWords : Prop :=
  mtRead (initArray 0) 0 = 0 ∧ mtRead (initArray 0) 1 = 0x00011C59 ∧ mtRead (initArray 0xFFFFFFFF) 0 = 0xFFFFFFFE

/-! ### The cipher -/

/-- R53: a group of stream bytes is its little-endian value, and the low bytes of a value are its stream bytes. -/
def Obligations.GroupsAreLittleEndian : Prop :=
  (∀ b0 b1 b2 b3 : Byte,
    (groupOf [b0, b1, b2, b3]).extractLsb' 0 8 = b0 ∧ (groupOf [b0, b1, b2, b3]).extractLsb' 8 8 = b1 ∧
    (groupOf [b0, b1, b2, b3]).extractLsb' 16 8 = b2 ∧ (groupOf [b0, b1, b2, b3]).extractLsb' 24 8 = b3) ∧
  ∀ bs, bs.length ≤ 4 → bytesOf bs.length (groupOf bs) = bs

/-- R151 and R54: byte `i` of an output group is the XOR of the bytes `i` inside the group and 0 above it, so that no
bit of the unused keystream bytes is in it. -/
def Obligations.OutputGroupsHideUnusedKeystreamBytes : Prop :=
  ∀ m v w i, m ≤ 4 → i < 4 →
    byteOf (groupXor m v w) i = if i < m then byteOf v i ^^^ byteOf w i else 0

/-- R152. -/
def Obligations.XorwCiphersAFullGroup : Prop :=
  (∀ v : Word, RunsAs (0x20#8 ++ v) (.xorw v)) ∧
  (∀ v s, s.genValid = true → exec (.xorw v) s = .next { afterNext s with rsp := some ⟨.ok, 4, v ^^^ nextWord s⟩ }) ∧
  (∀ v, RefusedUninit (.xorw v)) ∧
  ∀ s, exec (.xorw 0) s = exec .gnext s

/-- R153. -/
def Obligations.Xorp1CiphersAFinalByte : Prop := FinalGroupRule 1 0x21 .xorp1 0x000000FF

/-- R154. -/
def Obligations.Xorp2CiphersTwoFinalBytes : Prop := FinalGroupRule 2 0x22 .xorp2 0x0000FFFF

/-- R155. -/
def Obligations.Xorp3CiphersThreeFinalBytes : Prop := FinalGroupRule 3 0x23 .xorp3 0x00FFFFFF

/-- R150: `transform` byte by byte over the words of `keystream(seed, ceil(L/4))`, and its length. -/
def Obligations.TransformXorsByteByByte : Prop :=
  ∀ s seed,
    (transform s seed).length = s.length ∧
    ∀ p, ∀ h : p < s.length,
      ∃ w, (keystream seed ((s.length + 3) / 4))[p / 4]? = some w ∧
        (transform s seed)[p]? = some (s[p] ^^^ w.extractLsb' (8 * (p % 4)) 8)

/-- R157: with the same seed, `transform` undoes itself. -/
def Obligations.TransformIsItsOwnInverse : Prop := ∀ s seed, transform (transform s seed) seed = s

/-- R163: with two seeds, byte `p` is left XORed with the bytes of both keystreams. -/
def Obligations.TwoSeedsLeaveBothKeystreams : Prop :=
  ∀ s seed1 seed2 p, ∀ h : p < s.length,
    (transform (transform s seed1) seed2)[p]? =
      some (s[p] ^^^ byteOf (keystreamWord seed1 (p / 4)) (p % 4) ^^^ byteOf (keystreamWord seed2 (p / 4)) (p % 4))

/-- R160: on a generator initialised from `seed` and not yet read, `XORS s` returns `transform(s, seed)`. -/
def Obligations.XorsComputesTransform : Prop :=
  ∀ s seed bytes, bytes ≠ [] → s.genValid = true → s.mt = initArray seed → s.cursor = 624 →
    ∃ t rs, session (commands (xorsScript bytes)) s = some (t, rs) ∧
      responseBytes rs = transform bytes seed ∧
      (∀ r ∈ rs, r.st = .ok) ∧ rs.length = (bytes.length + 3) / 4 ∧
      t.cursor.toNat = ((bytes.length + 3) / 4 - 1) % 624 + 1 ∧
      t.genValid = decide (bytes.length % 4 = 0)

/-- R160 with R107 and R125: `KEY "name"; XORS s` from any state returns `transform(s, derive_seed(name))`. -/
def Obligations.KeyThenXorsCiphersUnderTheName : Prop :=
  ∀ s name bytes, bytes ≠ [] →
    ∃ t rs, session (commands (keyScript name ++ xorsScript bytes)) s = some (t, rs) ∧
      responseBytes (rs.drop (name.length + 3)) =
        transform bytes (BitVec.ofNat 32 (deriveSeed s.sepNat (codePoints name)))

/-- R188: the five commands are refused while GEN_VALID = 0, which is so after reset and after a final group until the
next GINIT or GINITS. -/
def Obligations.ConsumersNeedAValidGenerator : Prop :=
  (∀ i : Instr, i.consumes = true → RefusedUninit i) ∧
  (∀ s rest t, s.inputs = .rst :: rest → step s = .next t → t.genValid = false) ∧
  (∀ v s t, exec (.xorp1 v) s = .next t ∨ exec (.xorp2 v) s = .next t ∨ exec (.xorp3 v) s = .next t →
    t.genValid = false) ∧
  ∀ es s, s.genValid = false → (∀ e ∈ es, ¬ initialises e) →
    ∃ t rs, session es s = some (t, rs) ∧ t.genValid = false

/-! ### The system command, the flags, the registers' owners -/

/-- R170, with R32's fields. -/
def Obligations.RdstReadsTheStatusView : Prop :=
  RunsAs 0x3000000000 .rdst ∧
  (∀ arg : Word, arg ≠ 0 → RefusedIllegal (0x30#8 ++ arg)) ∧
  (∀ s, exec .rdst s = .next { s with rsp := some ⟨.ok, 4, s.status⟩ }) ∧
  ∀ s : State,
    s.status.getLsbD 0 = s.genValid ∧ s.status.getLsbD 1 = s.dot ∧ s.status.getLsbD 2 = s.nz ∧
    s.status.getLsbD 3 = s.errs ∧ s.status.extractLsb' 4 10 = s.cursor ∧ s.status.extractLsb' 14 18 = 0

/-- R20's column "written by", with R25 and R30: which command may change which register. No command writes the
model's own fields but the marker of the array (logs 1 to 4). -/
def Obligations.RegistersChangeOnlyByTheirWriters : Prop :=
  ∀ i s t, exec i s = .next t →
    ((i = .hclr ∨ ∃ c, i = .hchr c) ∨
      (t.accStem = s.accStem ∧ t.accFull = s.accFull ∧ t.dot = s.dot ∧ t.nz = s.nz)) ∧
    (i = .hfin ∨ t.seed = s.seed) ∧
    ((i = .ginits ∨ ∃ seed, i = .ginit seed) ∨
      (t.mtWritten = s.mtWritten ∧ (i.consumes = true ∨ (t.mt = s.mt ∧ t.cursor = s.cursor)))) ∧
    ((i = .ginits ∨ ∃ seed, i = .ginit seed) ∨ (∃ v, i = .xorp1 v ∨ i = .xorp2 v ∨ i = .xorp3 v) ∨
      t.genValid = s.genValid) ∧
    ((i.consumes = true ∧ s.genValid = false) ∨ t.errs = s.errs) ∧
    t.sep = s.sep ∧ t.inputs = s.inputs ∧ t.freeCount = s.freeCount

/-- R25's "Only GINITS reads it": with another value in SEED, every other command leaves and answers the same, and
HFIN's value overwrites it. -/
def Obligations.OnlyGinitsReadsTheSeed : Prop :=
  ∀ i s t x, i ≠ .ginits → exec i s = .next t →
    exec i { s with seed := x } = .next { t with seed := if i = .hfin then t.seed else x }

/-- R28, R27: the cursor goes `c -> c+1` below 624 and `624 -> 1` at a consumed word, to 624 at an initialisation, and
is moved by nothing else. -/
def Obligations.CursorAdvancesOnePerWord : Prop :=
  ∀ i s t, s.cursor.toNat ≤ 624 → exec i s = .next t →
    (i.consumes = true → s.genValid = true → s.cursor.toNat < 624 → t.cursor.toNat = s.cursor.toNat + 1) ∧
    (i.consumes = true → s.genValid = true → s.cursor.toNat = 624 → t.cursor.toNat = 1) ∧
    (i.consumes = true → s.genValid = false → t.cursor = s.cursor) ∧
    (i = .ginits ∨ (∃ seed, i = .ginit seed) → t.cursor.toNat = 624) ∧
    (i = .hclr ∨ (∃ c, i = .hchr c) ∨ i = .hfin ∨ i = .rdst → t.cursor = s.cursor)

/-- R30, R194: whatever refusals came before, the answers of every list of inputs without an RDST are the same, and so
is the state but for ERRS and the last answer. -/
def Obligations.RefusalsChangeNoLaterAnswer : Prop :=
  ∀ es s t, (∀ e ∈ es, notStatusRead e) → SameButRefusal s t →
    ∃ s' t' rs, session es s = some (s', rs) ∧ session es t = some (t', rs) ∧ SameButRefusal s' t'

/-- R6 and log 1: SEP is never true of the dot, and no input changes it. -/
def Obligations.SepIsAParameter : Prop :=
  ∀ s t, step s = .next t → t.sep = s.sep ∧ t.isSep 0x2E = false

/-- R5: the fixed parameters. -/
def Obligations.ParametersAreThoseOfTheSpec : Prop :=
  Config.stateWords = 624 ∧ Config.twistOffset = 397 ∧ Config.hashMul.toNat = 144751 ∧ Config.hashAdd.toNat = 7477 ∧
  Config.lcgMul.toNat = 69069 ∧ Config.lcgInc = 1 ∧ Config.upperMask = 0x80000000 ∧ Config.lowerMask = 0x7FFFFFFF ∧
  Config.matrix = 0x9908B0DF ∧ Config.temperShift1 = 11 ∧ Config.temperShift2 = 7 ∧ Config.temperShift3 = 15 ∧
  Config.temperShift4 = 18 ∧ Config.temperMask2 = 0x9D2C5680 ∧ Config.temperMask3 = 0xEFC60000 ∧
  Config.groupBytes = 4 ∧ Config.dotCp = 0x2E

/-! ### Invariants -/

/-- R35 (a), (b), (d) and R73, kept by every step from every state that has them. -/
def Obligations.EveryStepKeepsTheInvariant : Prop := ∀ s t, s.Inv → step s = .next t → t.Inv

/-- They hold after reset. -/
def Obligations.ResetStateMeetsTheInvariant : Prop := State.reset.Inv

/-- R43: the unspecified words of MT cannot be observed. Two states that differ only in an array that is not valid give
the same answers to every list of inputs, and go on differing in nothing else. -/
def Obligations.UnspecifiedArrayWordsAreNeverSeen : Prop :=
  ∀ es s t, SameButUnreadMt s t →
    ∃ s' t' rs, session es s = some (s', rs) ∧ session es t = some (t', rs) ∧ SameButUnreadMt s' t'

/-! ### The ports -/

/-- R71, R216: `cmd_ready` exactly when nothing is in flight, `rsp_valid` exactly when a response waits, both 0 while
`rst = 1`; a response is held, and shown unchanged, until the host takes it. Two things in it are the model's choices
and no rule's words: the core keeps the delivered response in `rsp` (log 5), and `cmd_ready` is 1 on every edge with
nothing in flight, the registers unchanged on the edge that accepts (log 6, read from R34 (a) and R56). -/
def Obligations.PortHandshakeHoldsUntilDelivery : Prop :=
  ∀ p i,
    ((pinsOut i p).cmdReady = true ↔ i.rst = false ∧ p.phase = .idle) ∧
    ((pinsOut i p).rspValid = true ↔ i.rst = false ∧ p.phase = .responding) ∧
    (i.rst = false → p.phase = .responding → i.rspReady = false →
      ∃ q, clockEdge i p = .next q ∧ q.phase = .responding ∧ q.core = p.core ∧
        ∀ j r, j.rst = false → p.core.rsp = some r → (pinsOut i p).rsp = r.word ∧ (pinsOut j q).rsp = r.word) ∧
    (i.rst = false → p.phase = .responding → i.rspReady = true →
      ∃ q, clockEdge i p = .next q ∧ q.phase = .idle ∧ q.core = p.core) ∧
    (i.rst = false → p.phase = .idle → i.cmdValid = true →
      ∃ q n, clockEdge i p = .next q ∧ q.phase = .busy i.cmd n ∧ q.core = p.core) ∧
    (i.rst = false → p.phase = .idle → i.cmdValid = false →
      ∃ q, clockEdge i p = .next q ∧ q.phase = .idle ∧ q.core = p.core)

/-- R195, R215, R45: on an edge with `rst = 1` the block takes its reset state, whatever it was doing, and a command in
flight or a response waiting is gone: neither an answer nor a readiness is shown. -/
def Obligations.RstWinsAtThePorts : Prop :=
  ∀ p i, i.rst = true →
    (pinsOut i p).cmdReady = false ∧ (pinsOut i p).rspValid = false ∧ acceptedAt i p = [] ∧ deliveredAt i p = [] ∧
    ∃ q, clockEdge i p = .next q ∧ q.phase = .idle ∧ q.core.rsp = none ∧
      q.core.accStem = 0 ∧ q.core.accFull = 0 ∧ q.core.dot = false ∧ q.core.nz = false ∧ q.core.seed = 0 ∧
      q.core.cursor = 624 ∧ q.core.genValid = false ∧ q.core.errs = false

/-- R71, R59, R18: without `rst`, any run of clock edges from an idle block does the transactions of the words it
accepted, in order, one answer each: what is delivered, with the answer that still waits, is what `session` gives; a
word still in flight has done nothing yet. Whatever the free latencies are. Two things in it are the model's choices:
that a word in flight has changed no register yet, since all its writes land on one edge (log 6; R56 only puts them
between acceptance and response), and that the idle core still holds the delivered response in `rsp` (log 5). Runs with
`rst` are left to `RstWinsAtThePorts`. -/
def Obligations.PortsDoTheTransactionsInOrder : Prop :=
  ∀ is p, p.phase = .idle → (∀ i ∈ is, i.rst = false) →
    ∃ tr rs, clockRun is p = some tr ∧
      match tr.last.phase with
      | .idle =>
        session (tr.accepted.map .command) p.core = some (tr.last.core, rs) ∧
        tr.delivered = rs.map Response.word
      | .busy w _ =>
        ∃ done, tr.accepted = done ++ [w] ∧
          session (done.map .command) p.core = some (tr.last.core, rs) ∧ tr.delivered = rs.map Response.word
      | .responding =>
        ∃ r, session (tr.accepted.map .command) p.core = some (tr.last.core, rs) ∧
          tr.last.core.rsp = some r ∧ rs.map Response.word = tr.delivered ++ [r.word]

/-- R234, R71: a command accepted by an idle block is answered, once, after a bounded number of edges, if the host keeps
`rsp_ready` up and does not reset. The bound holds for whatever the free latency is. That an idle block accepts whenever
a command is offered is the model's choice (log 6). -/
def Obligations.EveryAcceptedCommandIsAnswered : Prop :=
  ∀ p i, p.phase = .idle → i.rst = false → i.cmdValid = true →
    ∃ n, ∀ later : List PinsIn, later.length = n → (∀ j ∈ later, j.rst = false ∧ j.cmdValid = false ∧ j.rspReady = true) →
      ∃ tr r, clockRun (i :: later) p = some tr ∧ tr.last.phase = .idle ∧ tr.accepted = [i.cmd] ∧
        tr.delivered = [r]

/-! ### Scripts -/

/-- R80's six lines. -/
def Obligations.ScriptLinesAssemble : Prop :=
  assembleLine? "HCLR                      # 0x01_00000000".toList = some 0x0100000000 ∧
  assembleLine? "HCHR 'a'                  # 0x02_00000061".toList = some 0x0200000061 ∧
  assembleLine? "HFIN                      # 0x03_00000000  -> 0x04_000B1115".toList = some 0x0300000000 ∧
  assembleLine? "GINIT 0x000B1115          # 0x10_000B1115".toList = some 0x10000B1115 ∧
  assembleLine? "XORW 0x44434241           # 0x20_44434241".toList = some 0x2044434241 ∧
  assembleLine? "XORP3 0x45 0x46 0x47      # 0x23_00474645".toList = some 0x2300474645
end

