-- ==== Sys2Proof/Laws/Decode.lean ====
section
/-! SUPPORT. The two fields of a command word, and what a successful decoding says of them. -/

namespace Sys2Proof

@[simp] theorem opField_append (op : BitVec 8) (arg : Word) : opField (op ++ arg) = op := by
  ext i hi
  simp only [opField, BitVec.getElem_extractLsb', BitVec.getLsbD_append]
  rw [if_neg (by omega), show 32 + i - 32 = i by omega, BitVec.getLsbD_eq_getElem hi]

@[simp] theorem argField_append (op : BitVec 8) (arg : Word) : argField (op ++ arg) = arg := by
  ext i hi
  simp only [argField, BitVec.getElem_extractLsb', BitVec.getLsbD_append]
  rw [if_pos (by omega), Nat.zero_add, BitVec.getLsbD_eq_getElem hi]

/-- A command word is its two fields. -/
theorem append_fields (w : PortWord) : opField w ++ argField w = w := by
  ext i hi
  simp only [opField, argField, BitVec.getElem_append, BitVec.getElem_extractLsb']
  split
  · rw [Nat.zero_add, BitVec.getLsbD_eq_getElem hi]
  · rw [show 32 + (i - 32) = i by omega, BitVec.getLsbD_eq_getElem hi]

@[simp] theorem decode_append (op : BitVec 8) (arg : Word) : decode (op ++ arg) = decodeFields op arg := by
  simp [decode]

theorem decodeN_ok {i j : Instr} {arg : Word} (h : decodeN i arg = .ok j) : arg = 0 ∧ j = i := by
  unfold decodeN at h
  split at h
  · exact ⟨‹_›, (Except.ok.inj h).symm⟩
  · cases h

theorem decodeP_ok {k : Nat} {mk : Word → Instr} {arg : Word} {j : Instr} (h : decodeP k mk arg = .ok j) :
    fitsBytes k arg = true ∧ j = mk arg := by
  unfold decodeP at h
  split at h
  · exact ⟨‹_›, (Except.ok.inj h).symm⟩
  · cases h

/-- What decoding says of the fields: they are the command's own, and the command is well formed. -/
theorem decodeFields_ok {op : BitVec 8} {arg : Word} {i : Instr} (h : decodeFields op arg = .ok i) :
    i.wf = true ∧ op = i.op ∧ arg = i.arg := by
  have hop : ∀ n, op.toNat = n → op = BitVec.ofNat 8 n := fun n hn => by simp [← hn]
  unfold decodeFields at h
  split at h
  case h_1 e => obtain ⟨rfl, rfl⟩ := decodeN_ok h; exact ⟨rfl, hop _ e, rfl⟩
  case h_2 e => cases h; exact ⟨rfl, hop _ e, rfl⟩
  case h_3 e => obtain ⟨rfl, rfl⟩ := decodeN_ok h; exact ⟨rfl, hop _ e, rfl⟩
  case h_4 e => cases h; exact ⟨rfl, hop _ e, rfl⟩
  case h_5 e => obtain ⟨rfl, rfl⟩ := decodeN_ok h; exact ⟨rfl, hop _ e, rfl⟩
  case h_6 e => obtain ⟨rfl, rfl⟩ := decodeN_ok h; exact ⟨rfl, hop _ e, rfl⟩
  case h_7 e => cases h; exact ⟨rfl, hop _ e, rfl⟩
  case h_8 e => obtain ⟨hf, rfl⟩ := decodeP_ok h; exact ⟨hf, hop _ e, rfl⟩
  case h_9 e => obtain ⟨hf, rfl⟩ := decodeP_ok h; exact ⟨hf, hop _ e, rfl⟩
  case h_10 e => obtain ⟨hf, rfl⟩ := decodeP_ok h; exact ⟨hf, hop _ e, rfl⟩
  case h_11 e => obtain ⟨rfl, rfl⟩ := decodeN_ok h; exact ⟨rfl, hop _ e, rfl⟩
  case h_12 => cases h

end Sys2Proof
end

