-- ==== Sys2Proof/Laws/State.lean ====
section
/-! SUPPORT. One lemma for each field of the state under each shared update of Machine/Ops.lean, so that no proof
unfolds a record update. The updates that branch (`twistIfExhausted`, `afterNext`) have theirs for the fields they
never touch. -/

namespace Sys2Proof.Machine

/-! ### `respond` -/

@[simp] theorem respond_accStem (r : Response) (s : State) : (respond r s).accStem = s.accStem := rfl
@[simp] theorem respond_accFull (r : Response) (s : State) : (respond r s).accFull = s.accFull := rfl
@[simp] theorem respond_dot (r : Response) (s : State) : (respond r s).dot = s.dot := rfl
@[simp] theorem respond_nz (r : Response) (s : State) : (respond r s).nz = s.nz := rfl
@[simp] theorem respond_seed (r : Response) (s : State) : (respond r s).seed = s.seed := rfl
@[simp] theorem respond_mt (r : Response) (s : State) : (respond r s).mt = s.mt := rfl
@[simp] theorem respond_cursor (r : Response) (s : State) : (respond r s).cursor = s.cursor := rfl
@[simp] theorem respond_genValid (r : Response) (s : State) : (respond r s).genValid = s.genValid := rfl
@[simp] theorem respond_errs (r : Response) (s : State) : (respond r s).errs = s.errs := rfl
@[simp] theorem respond_rsp (r : Response) (s : State) : (respond r s).rsp = some r := rfl
@[simp] theorem respond_inputs (r : Response) (s : State) : (respond r s).inputs = s.inputs := rfl
@[simp] theorem respond_sep (r : Response) (s : State) : (respond r s).sep = s.sep := rfl
@[simp] theorem respond_mtWritten (r : Response) (s : State) : (respond r s).mtWritten = s.mtWritten := rfl
@[simp] theorem respond_freeCount (r : Response) (s : State) : (respond r s).freeCount = s.freeCount := rfl

/-! ### `refuse` -/

@[simp] theorem refuse_accStem (st : Status) (s : State) : (refuse st s).accStem = s.accStem := rfl
@[simp] theorem refuse_accFull (st : Status) (s : State) : (refuse st s).accFull = s.accFull := rfl
@[simp] theorem refuse_dot (st : Status) (s : State) : (refuse st s).dot = s.dot := rfl
@[simp] theorem refuse_nz (st : Status) (s : State) : (refuse st s).nz = s.nz := rfl
@[simp] theorem refuse_seed (st : Status) (s : State) : (refuse st s).seed = s.seed := rfl
@[simp] theorem refuse_mt (st : Status) (s : State) : (refuse st s).mt = s.mt := rfl
@[simp] theorem refuse_cursor (st : Status) (s : State) : (refuse st s).cursor = s.cursor := rfl
@[simp] theorem refuse_genValid (st : Status) (s : State) : (refuse st s).genValid = s.genValid := rfl
@[simp] theorem refuse_errs (st : Status) (s : State) : (refuse st s).errs = true := rfl
@[simp] theorem refuse_rsp (st : Status) (s : State) : (refuse st s).rsp = some (.refusal st) := rfl
@[simp] theorem refuse_inputs (st : Status) (s : State) : (refuse st s).inputs = s.inputs := rfl
@[simp] theorem refuse_sep (st : Status) (s : State) : (refuse st s).sep = s.sep := rfl
@[simp] theorem refuse_mtWritten (st : Status) (s : State) : (refuse st s).mtWritten = s.mtWritten := rfl
@[simp] theorem refuse_freeCount (st : Status) (s : State) : (refuse st s).freeCount = s.freeCount := rfl

/-! ### `clearHash` -/

@[simp] theorem clearHash_accStem (s : State) : (clearHash s).accStem = 0 := rfl
@[simp] theorem clearHash_accFull (s : State) : (clearHash s).accFull = 0 := rfl
@[simp] theorem clearHash_dot (s : State) : (clearHash s).dot = false := rfl
@[simp] theorem clearHash_nz (s : State) : (clearHash s).nz = false := rfl
@[simp] theorem clearHash_seed (s : State) : (clearHash s).seed = s.seed := rfl
@[simp] theorem clearHash_mt (s : State) : (clearHash s).mt = s.mt := rfl
@[simp] theorem clearHash_cursor (s : State) : (clearHash s).cursor = s.cursor := rfl
@[simp] theorem clearHash_genValid (s : State) : (clearHash s).genValid = s.genValid := rfl
@[simp] theorem clearHash_errs (s : State) : (clearHash s).errs = s.errs := rfl
@[simp] theorem clearHash_rsp (s : State) : (clearHash s).rsp = s.rsp := rfl
@[simp] theorem clearHash_inputs (s : State) : (clearHash s).inputs = s.inputs := rfl
@[simp] theorem clearHash_sep (s : State) : (clearHash s).sep = s.sep := rfl
@[simp] theorem clearHash_mtWritten (s : State) : (clearHash s).mtWritten = s.mtWritten := rfl
@[simp] theorem clearHash_freeCount (s : State) : (clearHash s).freeCount = s.freeCount := rfl

/-! ### `initGen` -/

@[simp] theorem initGen_accStem (seed : Word) (s : State) : (initGen seed s).accStem = s.accStem := rfl
@[simp] theorem initGen_accFull (seed : Word) (s : State) : (initGen seed s).accFull = s.accFull := rfl
@[simp] theorem initGen_dot (seed : Word) (s : State) : (initGen seed s).dot = s.dot := rfl
@[simp] theorem initGen_nz (seed : Word) (s : State) : (initGen seed s).nz = s.nz := rfl
@[simp] theorem initGen_seed (seed : Word) (s : State) : (initGen seed s).seed = s.seed := rfl
@[simp] theorem initGen_mt (seed : Word) (s : State) : (initGen seed s).mt = initArray seed := rfl
@[simp] theorem initGen_cursor (seed : Word) (s : State) : (initGen seed s).cursor = 624 := rfl
@[simp] theorem initGen_genValid (seed : Word) (s : State) : (initGen seed s).genValid = s.genValid := rfl
@[simp] theorem initGen_errs (seed : Word) (s : State) : (initGen seed s).errs = s.errs := rfl
@[simp] theorem initGen_rsp (seed : Word) (s : State) : (initGen seed s).rsp = s.rsp := rfl
@[simp] theorem initGen_inputs (seed : Word) (s : State) : (initGen seed s).inputs = s.inputs := rfl
@[simp] theorem initGen_sep (seed : Word) (s : State) : (initGen seed s).sep = s.sep := rfl
@[simp] theorem initGen_mtWritten (seed : Word) (s : State) : (initGen seed s).mtWritten = true := rfl
@[simp] theorem initGen_freeCount (seed : Word) (s : State) : (initGen seed s).freeCount = s.freeCount := rfl

/-! ### `startGen` -/

@[simp] theorem startGen_accStem (seed : Word) (s : State) : (startGen seed s).accStem = s.accStem := rfl
@[simp] theorem startGen_accFull (seed : Word) (s : State) : (startGen seed s).accFull = s.accFull := rfl
@[simp] theorem startGen_dot (seed : Word) (s : State) : (startGen seed s).dot = s.dot := rfl
@[simp] theorem startGen_nz (seed : Word) (s : State) : (startGen seed s).nz = s.nz := rfl
@[simp] theorem startGen_seed (seed : Word) (s : State) : (startGen seed s).seed = s.seed := rfl
@[simp] theorem startGen_mt (seed : Word) (s : State) : (startGen seed s).mt = initArray seed := rfl
@[simp] theorem startGen_cursor (seed : Word) (s : State) : (startGen seed s).cursor = 624 := rfl
@[simp] theorem startGen_genValid (seed : Word) (s : State) : (startGen seed s).genValid = true := rfl
@[simp] theorem startGen_errs (seed : Word) (s : State) : (startGen seed s).errs = s.errs := rfl
@[simp] theorem startGen_rsp (seed : Word) (s : State) : (startGen seed s).rsp = some .done := rfl
@[simp] theorem startGen_inputs (seed : Word) (s : State) : (startGen seed s).inputs = s.inputs := rfl
@[simp] theorem startGen_sep (seed : Word) (s : State) : (startGen seed s).sep = s.sep := rfl
@[simp] theorem startGen_mtWritten (seed : Word) (s : State) : (startGen seed s).mtWritten = true := rfl
@[simp] theorem startGen_freeCount (seed : Word) (s : State) : (startGen seed s).freeCount = s.freeCount := rfl

/-! ### `twist` -/

@[simp] theorem twist_accStem (s : State) : (twist s).accStem = s.accStem := rfl
@[simp] theorem twist_accFull (s : State) : (twist s).accFull = s.accFull := rfl
@[simp] theorem twist_dot (s : State) : (twist s).dot = s.dot := rfl
@[simp] theorem twist_nz (s : State) : (twist s).nz = s.nz := rfl
@[simp] theorem twist_seed (s : State) : (twist s).seed = s.seed := rfl
@[simp] theorem twist_mt (s : State) : (twist s).mt = twistArray s.mt := rfl
@[simp] theorem twist_cursor (s : State) : (twist s).cursor = 0 := rfl
@[simp] theorem twist_genValid (s : State) : (twist s).genValid = s.genValid := rfl
@[simp] theorem twist_errs (s : State) : (twist s).errs = s.errs := rfl
@[simp] theorem twist_rsp (s : State) : (twist s).rsp = s.rsp := rfl
@[simp] theorem twist_inputs (s : State) : (twist s).inputs = s.inputs := rfl
@[simp] theorem twist_sep (s : State) : (twist s).sep = s.sep := rfl
@[simp] theorem twist_mtWritten (s : State) : (twist s).mtWritten = s.mtWritten := rfl
@[simp] theorem twist_freeCount (s : State) : (twist s).freeCount = s.freeCount := rfl

/-! ### `takeReset` -/

@[simp] theorem takeReset_accStem (s : State) : (takeReset s).accStem = 0 := rfl
@[simp] theorem takeReset_accFull (s : State) : (takeReset s).accFull = 0 := rfl
@[simp] theorem takeReset_dot (s : State) : (takeReset s).dot = false := rfl
@[simp] theorem takeReset_nz (s : State) : (takeReset s).nz = false := rfl
@[simp] theorem takeReset_seed (s : State) : (takeReset s).seed = 0 := rfl
@[simp] theorem takeReset_mt (s : State) : (takeReset s).mt = unspecifiedArray (s.freeCount + 1) := rfl
@[simp] theorem takeReset_cursor (s : State) : (takeReset s).cursor = 624 := rfl
@[simp] theorem takeReset_genValid (s : State) : (takeReset s).genValid = false := rfl
@[simp] theorem takeReset_errs (s : State) : (takeReset s).errs = false := rfl
@[simp] theorem takeReset_rsp (s : State) : (takeReset s).rsp = none := rfl
@[simp] theorem takeReset_inputs (s : State) : (takeReset s).inputs = s.inputs := rfl
@[simp] theorem takeReset_sep (s : State) : (takeReset s).sep = s.sep := rfl
@[simp] theorem takeReset_mtWritten (s : State) : (takeReset s).mtWritten = false := rfl
@[simp] theorem takeReset_freeCount (s : State) : (takeReset s).freeCount = s.freeCount + 1 := rfl

/-! ### `State.offer` -/

@[simp] theorem State.offer_accStem (s : State) (e : HostInput) : (s.offer e).accStem = s.accStem := rfl
@[simp] theorem State.offer_accFull (s : State) (e : HostInput) : (s.offer e).accFull = s.accFull := rfl
@[simp] theorem State.offer_dot (s : State) (e : HostInput) : (s.offer e).dot = s.dot := rfl
@[simp] theorem State.offer_nz (s : State) (e : HostInput) : (s.offer e).nz = s.nz := rfl
@[simp] theorem State.offer_seed (s : State) (e : HostInput) : (s.offer e).seed = s.seed := rfl
@[simp] theorem State.offer_mt (s : State) (e : HostInput) : (s.offer e).mt = s.mt := rfl
@[simp] theorem State.offer_cursor (s : State) (e : HostInput) : (s.offer e).cursor = s.cursor := rfl
@[simp] theorem State.offer_genValid (s : State) (e : HostInput) : (s.offer e).genValid = s.genValid := rfl
@[simp] theorem State.offer_errs (s : State) (e : HostInput) : (s.offer e).errs = s.errs := rfl
@[simp] theorem State.offer_rsp (s : State) (e : HostInput) : (s.offer e).rsp = s.rsp := rfl
@[simp] theorem State.offer_inputs (s : State) (e : HostInput) : (s.offer e).inputs = e :: s.inputs := rfl
@[simp] theorem State.offer_sep (s : State) (e : HostInput) : (s.offer e).sep = s.sep := rfl
@[simp] theorem State.offer_mtWritten (s : State) (e : HostInput) : (s.offer e).mtWritten = s.mtWritten := rfl
@[simp] theorem State.offer_freeCount (s : State) (e : HostInput) : (s.offer e).freeCount = s.freeCount := rfl

/-! ### `twistIfExhausted` and `afterNext`: only `mt` and `cursor` -/

@[simp] theorem twistIfExhausted_accStem (s : State) : (twistIfExhausted s).accStem = s.accStem := by
  unfold twistIfExhausted; split <;> rfl
@[simp] theorem twistIfExhausted_accFull (s : State) : (twistIfExhausted s).accFull = s.accFull := by
  unfold twistIfExhausted; split <;> rfl
@[simp] theorem twistIfExhausted_dot (s : State) : (twistIfExhausted s).dot = s.dot := by
  unfold twistIfExhausted; split <;> rfl
@[simp] theorem twistIfExhausted_nz (s : State) : (twistIfExhausted s).nz = s.nz := by
  unfold twistIfExhausted; split <;> rfl
@[simp] theorem twistIfExhausted_seed (s : State) : (twistIfExhausted s).seed = s.seed := by
  unfold twistIfExhausted; split <;> rfl
@[simp] theorem twistIfExhausted_genValid (s : State) : (twistIfExhausted s).genValid = s.genValid := by
  unfold twistIfExhausted; split <;> rfl
@[simp] theorem twistIfExhausted_errs (s : State) : (twistIfExhausted s).errs = s.errs := by
  unfold twistIfExhausted; split <;> rfl
@[simp] theorem twistIfExhausted_rsp (s : State) : (twistIfExhausted s).rsp = s.rsp := by
  unfold twistIfExhausted; split <;> rfl
@[simp] theorem twistIfExhausted_inputs (s : State) : (twistIfExhausted s).inputs = s.inputs := by
  unfold twistIfExhausted; split <;> rfl
@[simp] theorem twistIfExhausted_sep (s : State) : (twistIfExhausted s).sep = s.sep := by
  unfold twistIfExhausted; split <;> rfl
@[simp] theorem twistIfExhausted_mtWritten (s : State) : (twistIfExhausted s).mtWritten = s.mtWritten := by
  unfold twistIfExhausted; split <;> rfl
@[simp] theorem twistIfExhausted_freeCount (s : State) : (twistIfExhausted s).freeCount = s.freeCount := by
  unfold twistIfExhausted; split <;> rfl
@[simp] theorem afterNext_accStem (s : State) : (afterNext s).accStem = s.accStem := twistIfExhausted_accStem s
@[simp] theorem afterNext_accFull (s : State) : (afterNext s).accFull = s.accFull := twistIfExhausted_accFull s
@[simp] theorem afterNext_dot (s : State) : (afterNext s).dot = s.dot := twistIfExhausted_dot s
@[simp] theorem afterNext_nz (s : State) : (afterNext s).nz = s.nz := twistIfExhausted_nz s
@[simp] theorem afterNext_seed (s : State) : (afterNext s).seed = s.seed := twistIfExhausted_seed s
@[simp] theorem afterNext_genValid (s : State) : (afterNext s).genValid = s.genValid := twistIfExhausted_genValid s
@[simp] theorem afterNext_errs (s : State) : (afterNext s).errs = s.errs := twistIfExhausted_errs s
@[simp] theorem afterNext_rsp (s : State) : (afterNext s).rsp = s.rsp := twistIfExhausted_rsp s
@[simp] theorem afterNext_inputs (s : State) : (afterNext s).inputs = s.inputs := twistIfExhausted_inputs s
@[simp] theorem afterNext_sep (s : State) : (afterNext s).sep = s.sep := twistIfExhausted_sep s
@[simp] theorem afterNext_mtWritten (s : State) : (afterNext s).mtWritten = s.mtWritten := twistIfExhausted_mtWritten s
@[simp] theorem afterNext_freeCount (s : State) : (afterNext s).freeCount = s.freeCount := twistIfExhausted_freeCount s

/-! ### Two states with the same fields are the same -/

@[ext] theorem State.ext_fields {s t : State} (h1 : s.accStem = t.accStem) (h2 : s.accFull = t.accFull)
    (h3 : s.dot = t.dot) (h4 : s.nz = t.nz) (h5 : s.seed = t.seed) (h6 : s.mt = t.mt) (h7 : s.cursor = t.cursor)
    (h8 : s.genValid = t.genValid) (h9 : s.errs = t.errs) (h10 : s.rsp = t.rsp) (h11 : s.inputs = t.inputs)
    (h12 : s.sep = t.sep) (h13 : s.mtWritten = t.mtWritten) (h14 : s.freeCount = t.freeCount) : s = t := by
  cases s; cases t; simp_all

end Sys2Proof.Machine
end

