-- ==== Sys2Proof/Laws/Ops.lean ====
section
/-! SUPPORT. What each shared operation can do, said once: the state array, INIT and TWIST word by word, NEXT, the check
of GEN_VALID, the command channel, and that every command and every step goes on. -/

namespace Sys2Proof.Machine

/-! ### The state array -/

theorem mtRead_of_lt {mt : Vector Word Config.stateWords} {i : Nat} (h : i < 624) : mtRead mt i = mt[i] := by
  simp [mtRead, Nat.mod_eq_of_lt h]

theorem mtRead_mtWrite_same (mt : Vector Word Config.stateWords) (i : Nat) (v : Word) :
    mtRead (mtWrite mt i v) i = v := by
  simp [mtRead, mtWrite]

theorem mtRead_mtWrite_other (mt : Vector Word Config.stateWords) {i j : Nat} (v : Word) (h : i % 624 ≠ j % 624) :
    mtRead (mtWrite mt i v) j = mtRead mt j := by
  simp [mtRead, mtWrite, h]

/-- Two arrays that read the same at every index are equal. -/
theorem mt_ext {a b : Vector Word Config.stateWords} (h : ∀ i, i < 624 → mtRead a i = mtRead b i) : a = b := by
  apply Vector.ext
  intro i hi
  have := h i hi
  rwa [mtRead_of_lt hi, mtRead_of_lt hi] at this

/-! ### INIT -/

theorem initWords_getElem? (k : Nat) (current : Word) (i : Nat) (h : i < k) :
    (initWords k current)[i]? = some (initWord (lcgStep^[2 * i] current)) := by
  induction k generalizing current i with
  | zero => omega
  | succ k ih =>
    cases i with
    | zero => simp [initWords]
    | succ i =>
      have := ih (lcgStep (lcgStep current)) i (by omega)
      simp only [initWords, List.getElem?_cons_succ, this]
      rw [show 2 * (i + 1) = 2 * i + 2 by omega, Function.iterate_add_apply]
      rfl

/-- Word `i` of the initialised array, from two consecutive values of the recurrence. -/
theorem mtRead_initArray (seed : Word) {i : Nat} (h : i < 624) :
    mtRead (initArray seed) i = initWord (lcgStep^[2 * i] seed) := by
  rw [mtRead_of_lt h]
  have := initWords_getElem? 624 seed i h
  simpa [initArray, Vector.getElem_mk, List.getElem?_eq_some_iff, initWords_length, h] using this

/-! ### TWIST -/

/-- The array after the iterations below `k`. -/
def twistBelow (mt : Vector Word Config.stateWords) (k : Nat) : Vector Word Config.stateWords :=
  (List.range k).foldl twistIter mt

theorem twistBelow_zero (mt : Vector Word Config.stateWords) : twistBelow mt 0 = mt := by
  simp [twistBelow]

theorem twistBelow_succ (mt : Vector Word Config.stateWords) (k : Nat) :
    twistBelow mt (k + 1) = twistIter (twistBelow mt k) k := by
  simp [twistBelow, List.range_succ, List.foldl_append]

theorem twistArray_eq_twistBelow (mt : Vector Word Config.stateWords) : twistArray mt = twistBelow mt 624 := by
  unfold twistArray twistBelow; rfl

/-- A word that the iterations below `k` have not reached is still the old one. -/
theorem twistBelow_untouched (mt : Vector Word Config.stateWords) {k j : Nat} (hk : k ≤ j) (hj : j < 624) :
    mtRead (twistBelow mt k) j = mtRead mt j := by
  induction k with
  | zero => rw [twistBelow_zero]
  | succ k ih =>
    rw [twistBelow_succ, twistIter, mtRead_mtWrite_other _ _ (by omega)]
    exact ih (by omega)

/-- A word that the iterations below `k` have rewritten stays as iteration `j` left it. -/
theorem twistBelow_settled (mt : Vector Word Config.stateWords) {k j : Nat} (hj : j < k) (hk : k ≤ 624) :
    mtRead (twistBelow mt k) j = twistWord (twistBelow mt j) j := by
  induction k with
  | zero => omega
  | succ k ih =>
    rw [twistBelow_succ, twistIter]
    rcases Nat.lt_succ_iff_lt_or_eq.mp hj with h | rfl
    · rw [mtRead_mtWrite_other _ _ (by omega)]
      exact ih h (by omega)
    · exact mtRead_mtWrite_same _ _ _

/-! ### NEXT and the check of GEN_VALID -/

theorem nextWord_of_lt {s : State} (h : s.cursor.toNat < 624) :
    nextWord s = temper (mtRead s.mt s.cursor.toNat) := by
  simp [nextWord, twistIfExhausted, show ¬ 624 ≤ s.cursor.toNat by omega]

theorem nextWord_of_le {s : State} (h : 624 ≤ s.cursor.toNat) :
    nextWord s = temper (mtRead (twistArray s.mt) 0) := by
  simp [nextWord, twistIfExhausted, h]

theorem afterNext_of_lt {s : State} (h : s.cursor.toNat < 624) :
    afterNext s = { s with cursor := s.cursor + 1 } := by
  simp [afterNext, twistIfExhausted, show ¬ 624 ≤ s.cursor.toNat by omega]

theorem afterNext_of_le {s : State} (h : 624 ≤ s.cursor.toNat) :
    afterNext s = { s with mt := twistArray s.mt, cursor := 1 } := by
  simp [afterNext, twistIfExhausted, h, twist]

/-- The cursor NEXT leaves, in the range of R27. -/
theorem afterNext_cursor_toNat (s : State) :
    (afterNext s).cursor.toNat = if s.cursor.toNat < 624 then s.cursor.toNat + 1 else 1 := by
  by_cases h : s.cursor.toNat < 624
  · have : (1#10).toNat = 1 := rfl
    rw [afterNext_of_lt h, if_pos h, BitVec.toNat_add]
    show (s.cursor.toNat + (1#10).toNat) % 2 ^ 10 = s.cursor.toNat + 1
    omega
  · rw [afterNext_of_le (by omega), if_neg h]
    rfl

theorem withKeystream_valid {go : Word → State → State} {s : State} (h : s.genValid = true) :
    withKeystream go s = go (nextWord s) (afterNext s) := by
  simp [withKeystream, h]

theorem withKeystream_uninit {go : Word → State → State} {s : State} (h : s.genValid = false) :
    withKeystream go s = refuse .uninit s := by
  simp [withKeystream, h]

/-! ### Commands, inputs and steps -/

/-- The state a command leaves. -/
def effect : Instr → State → State
  | .hclr, s => respond .done (clearHash s)
  | .hchr c, s => respond .done (hashChar c s)
  | .hfin, s => respond (.value (finalSeed s)) { s with seed := finalSeed s }
  | .ginit seed, s => startGen seed s
  | .ginits, s => startGen s.seed s
  | .gnext, s => withKeystream (fun w t => respond (.value w) t) s
  | .xorw v, s => withKeystream (fun w t => respond (.value (groupXor Config.groupBytes v w)) t) s
  | .xorp1 v, s => finalGroup 1 v s
  | .xorp2 v, s => finalGroup 2 v s
  | .xorp3 v, s => finalGroup 3 v s
  | .rdst, s => respond (.value s.status) s

/-- Every command goes on. -/
theorem exec_eq_effect (i : Instr) (s : State) : exec i s = .next (effect i s) := by cases i <;> rfl

/-- The state an input leaves. -/
def inputEffect : HostInput → State → State
  | .command w, s => match decode w with
    | .ok i => effect i s
    | .error _ => refuse .illegal s
  | .rst, s => takeReset s

theorem runInput_eq (e : HostInput) (s : State) : runInput e s = .next (inputEffect e s) := by
  cases e with
  | rst => rfl
  | command w =>
    simp only [runInput, runCommand, inputEffect]
    cases decode w <;> simp [exec_eq_effect]

/-- Every step goes on: it runs the oldest input, or waits. -/
theorem step_cons {s : State} {e : HostInput} {rest : List HostInput} (h : s.inputs = e :: rest) :
    step s = .next (inputEffect e { s with inputs := rest }) := by
  simp only [step, h, runInput_eq]

theorem step_offer (s : State) (e : HostInput) : step (s.offer e) = .next (inputEffect e s) :=
  step_cons rfl

/-! ### Sessions -/

@[simp] theorem session_nil (s : State) : session [] s = some (s, []) := rfl

theorem session_cons (e : HostInput) (es : List HostInput) (s : State) :
    session (e :: es) s =
      (session es (inputEffect e s)).map fun (u, rs) => (u, (inputEffect e s).rsp.toList ++ rs) := by
  simp only [session, step_offer]

/-- A session over two lists is the one after the other. -/
theorem session_append (es fs : List HostInput) (s t u : State) (rs qs : List Response)
    (h1 : session es s = some (t, rs)) (h2 : session fs t = some (u, qs)) :
    session (es ++ fs) s = some (u, rs ++ qs) := by
  induction es generalizing s rs with
  | nil => simp_all
  | cons e es ih =>
    rw [session_cons] at h1
    rw [List.cons_append, session_cons]
    cases h : session es (inputEffect e s) with
    | none => simp [h] at h1
    | some p =>
      obtain ⟨t', rs'⟩ := p
      simp only [h, Option.map_some, Option.some.injEq, Prod.mk.injEq] at h1
      obtain ⟨rfl, rfl⟩ := h1
      simp [ih _ _ h]

end Sys2Proof.Machine
end

