-- ==== Sys2Proof/Laws/PerInstr.lean ====
section
/-! SUPPORT. The family EncodesInRow: the word that encodes a well-formed command lies in its row of the opcode table,
`encode i & mask = match` (spec/30_encoding.md R76). One lemma per constructor. -/

namespace Sys2Proof.Laws.EncodesInRow

def Statement (i : Instr) : Prop := i.wf = true → encode i &&& i.tableMask = i.tableMatch

/-- Masking off the operand bits of a word whose operand fits in them leaves the operation code. -/
theorem mask_operand (op : BitVec 8) (v : Word) (k : Nat) (mask : PortWord) (hv : v.toNat < 2 ^ k)
    (hm : mask = BitVec.allOnes 40 <<< k) (hk : k ≤ 32) : (op ++ v) &&& mask = op ++ (0 : Word) := by
  subst hm
  ext i hi
  simp only [BitVec.getElem_and, BitVec.getElem_append, BitVec.getElem_shiftLeft, BitVec.getElem_allOnes]
  by_cases h32 : i < 32
  · by_cases hik : i < k
    · simp [h32, hik]
    · have : v.toNat.testBit i = false := Nat.testBit_lt_two_pow (lt_of_lt_of_le hv (Nat.pow_le_pow_right (by omega) (by omega)))
      simp [h32, BitVec.getElem_eq_testBit_toNat, this]
  · simp [h32, show ¬ i < k by omega]

theorem hclr : Statement .hclr := fun _ => by decide
theorem hchr (c : Word) : Statement (.hchr c) := fun _ => mask_operand 0x02 c 32 _ c.isLt rfl (by decide)
theorem hfin : Statement .hfin := fun _ => by decide
theorem ginit (seed : Word) : Statement (.ginit seed) :=
  fun _ => mask_operand 0x10 seed 32 _ seed.isLt rfl (by decide)
theorem ginits : Statement .ginits := fun _ => by decide
theorem gnext : Statement .gnext := fun _ => by decide
theorem xorw (v : Word) : Statement (.xorw v) := fun _ => mask_operand 0x20 v 32 _ v.isLt rfl (by decide)
theorem xorp1 (v : Word) : Statement (.xorp1 v) :=
  fun h => mask_operand 0x21 v 8 _ (of_decide_eq_true h) rfl (by decide)
theorem xorp2 (v : Word) : Statement (.xorp2 v) :=
  fun h => mask_operand 0x22 v 16 _ (of_decide_eq_true h) rfl (by decide)
theorem xorp3 (v : Word) : Statement (.xorp3 v) :=
  fun h => mask_operand 0x23 v 24 _ (of_decide_eq_true h) rfl (by decide)
theorem rdst : Statement .rdst := fun _ => by decide

end Sys2Proof.Laws.EncodesInRow
end

