-- ==== Sys2Proof/Tests/Slice0.lean ====
section
/-! SUPPORT. Tests of one step each, expected values from spec/95_test_vectors.md (the vector is named at each test),
and, for every statement with hypotheses, a witness: concrete states and operands that meet them. -/

namespace Sys2Proof.Tests

open Sys2Proof.Machine

/-! ### Well-formedness: each check refuses an ill-formed term -/

theorem test_wf_refuses_xorp1_second_byte : (Instr.xorp1 0x100).wf = false := by decide
theorem test_wf_refuses_xorp2_third_byte : (Instr.xorp2 0x10000).wf = false := by decide
theorem test_wf_refuses_xorp3_fourth_byte : (Instr.xorp3 0x1000000).wf = false := by decide
theorem test_wf_admits_full_bytes :
    (Instr.xorp1 0xFF).wf ∧ (Instr.xorp2 0xFFFF).wf ∧ (Instr.xorp3 0xFFFFFF).wf := by decide

/-! ### Decoding: the words of R80 and of the programs P1 to P5, one for every constructor -/

theorem test_decode_hclr : decode 0x0100000000 = .ok .hclr := by rfl
theorem test_decode_hchr : decode 0x0200000061 = .ok (.hchr 97) := by rfl
theorem test_decode_hfin : decode 0x0300000000 = .ok .hfin := by rfl
theorem test_decode_ginit : decode 0x10000B1115 = .ok (.ginit 0x000B1115) := by rfl
theorem test_decode_ginits : decode 0x1100000000 = .ok .ginits := by rfl
theorem test_decode_gnext : decode 0x1200000000 = .ok .gnext := by rfl
theorem test_decode_xorw : decode 0x2044434241 = .ok (.xorw 0x44434241) := by rfl
theorem test_decode_xorp1 : decode 0x210000006F = .ok (.xorp1 0x6F) := by rfl
theorem test_decode_xorp2 : decode 0x2200006548 = .ok (.xorp2 0x6548) := by rfl
theorem test_decode_xorp3 : decode 0x2300474645 = .ok (.xorp3 0x474645) := by rfl
theorem test_decode_rdst : decode 0x3000000000 = .ok .rdst := by rfl
/-- E2, E3, E16: undefined operation codes, the all-ones word among them. -/
theorem test_decode_unknown_ops :
    ([0x0000000000, 0xFF00000000, 0xFFFFFFFFFF, 0x1300000000, 0x0400000000, 0x2400000000, 0x3100000000].map decode) =
      List.replicate 7 (.error .unknownOp) := by rfl
/-- E4, E5, E7, E9, E10: reserved bits. -/
theorem test_decode_reserved_bits :
    ([0x0100000001, 0x2200016548, 0x2301000000, 0x3000000001, 0x1200000005].map decode) =
      List.replicate 5 (.error .reservedBits) := by rfl
theorem test_table_word : decodeTableWord 40 0x2300474645 = some (.xorp3 0x474645) := by decide

/-! ### One step each -/

/-- The answer and the state after one word of the host, from `s`. -/
def after (w : PortWord) (s : State) : State :=
  match step (s.offer (.command w)) with
  | .next t => t
  | .fault _ => s
  | .refused _ => s

/-- The answer's 40 bits. -/
def answer (s : State) : Option PortWord := s.rsp.map Response.word

/-- A state with a generator initialised from `seed`. -/
def seeded (seed : Word) : State := { initGen seed State.reset with genValid := true }

/-- E1: GNEXT after reset is refused ST_UNINIT and sets ERRS. -/
theorem test_gnext_uninit :
    answer (after 0x1200000000 State.reset) = some 0x2000000000 ∧ (after 0x1200000000 State.reset).errs = true := by
  decide +kernel
/-- K1: the first word of the stream of seed 000B1115; the cursor is then 1 (R123). -/
theorem test_gnext_first_word :
    answer (after 0x1200000000 (seeded 0x000B1115)) = some 0x048BA23489 ∧
      (after 0x1200000000 (seeded 0x000B1115)).cursor = 1 := by decide +kernel
/-- R104: HCLR after HCHR 'a'. -/
theorem test_hclr :
    (after 0x0100000000 { State.reset with accStem := 0x000B1115, accFull := 0x000B1115, nz := true }).accFull = 0 := by
  decide +kernel
/-- R105: HCHR 'b' after HCHR 'a'. -/
theorem test_hchr_folds :
    (after 0x0200000062 { State.reset with accStem := 0x000B1115, accFull := 0x000B1115, nz := true }).accStem =
      0x718AEF65 := by decide +kernel
/-- P7: a separator clears the unit. -/
theorem test_hchr_separator :
    (after 0x020000002F { State.reset with sep := [0x2F], accFull := 7, dot := true }).dot = false := by decide +kernel
/-- H9: a leading dot leaves NZ = 0, so HFIN takes ACC_FULL. -/
theorem test_hfin_fallback :
    answer (after 0x0300000000 { State.reset with accFull := 0x305FA8A9, dot := true }) = some 0x04305FA8A9 := by
  decide +kernel
/-- H1: with NZ = 1 HFIN takes ACC_STEM. -/
theorem test_hfin_stem :
    (after 0x0300000000 { State.reset with accStem := 0x000B1115, accFull := 0xCC3F0EFE, dot := true, nz := true }).seed =
      0x000B1115 := by decide +kernel
/-- R124: the last word of the array. -/
theorem test_ginit : mtRead (after 0x10000B1115 State.reset).mt 623 = 0xF6C6FAB6 := by decide +kernel
/-- K5: GINITS initialises from SEED. -/
theorem test_ginits :
    mtRead (after 0x1100000000 { State.reset with seed := 0x20D1F016 }).mt 1 = 0xF5DA9FCF := by decide +kernel
/-- R152: XORW of "Hell" under seed 20D1F016. -/
theorem test_xorw : answer (after 0x206C6C6548 (seeded 0x20D1F016)) = some 0x040773E5DD := by decide +kernel
/-- R153, R154: the short groups of one and two bytes end the stream. -/
theorem test_xorp1 :
    answer (after 0x2100000048 (seeded 0x20D1F016)) = some 0x01000000DD ∧
      (after 0x2100000048 (seeded 0x20D1F016)).genValid = false := by decide +kernel
theorem test_xorp2 : answer (after 0x2200006548 (seeded 0x20D1F016)) = some 0x020000E5DD := by decide +kernel
/-- X3: three bytes. -/
theorem test_xorp3 : answer (after 0x23006C6548 (seeded 0x20D1F016)) = some 0x030073E5DD := by decide +kernel
/-- E11, R170. -/
theorem test_rdst_reset : answer (after 0x3000000000 State.reset) = some 0x0400002700 := by decide +kernel
theorem test_rdst_fields :
    answer (after 0x3000000000 { State.reset with cursor := 3, genValid := true }) = some 0x0400000031 := by
  decide +kernel
/-- E5: illegal before uninitialised. -/
theorem test_illegal_first : answer (after 0x2200016548 State.reset) = some 0x1000000000 := by decide +kernel
/-- Section 2.2: the first word that the twist mixes with a rewritten word is 227 (a snapshot gets it wrong). -/
theorem test_twist_formula :
    twistFormula 0x000BA9CF 0x46DE846B 0xBBE58445 = 0x018276AF := by decide +kernel
/-- TEMPER, section 2.2. -/
theorem test_temper : temper 0x12345678 = 0x2B7E4A2D ∧ temper 0xDEADBEEF = 0xE016575D := by decide +kernel
/-- H23: the reference function on `x.y/.b` with SEP = slash. -/
theorem test_derive_seed : deriveSeed (fun c => c == 0x2F) [120, 46, 121, 47, 46, 98] = 0x97847764 := by decide +kernel
/-- X8: the script of seven bytes. -/
theorem test_xors_script :
    xorsScript [0x41, 0x42, 0x43, 0x44, 0x45, 0x46, 0x47] = [.xorw 0x44434241, .xorp3 0x474645] := by decide
/-- The host's fetch: the very next step runs the word. -/
theorem test_with_fetch_word (s : State) : step (s.withFetchWord 40 0x0100000000) = exec .hclr s := by rfl

/-! ### Witnesses: states and operands that meet the hypotheses of each statement -/

/-- A state in which the host offers the word next. -/
def offering (w : PortWord) : State := State.reset.offer (.command w)

theorem witness_StepRunsTheDecodedCommand :
    decode 0x2300FFFFFF = .ok (.xorp3 0xFFFFFF) ∧
      (offering 0x2300FFFFFF).inputs = .command 0x2300FFFFFF :: [] := ⟨rfl, rfl⟩

theorem witness_IllegalWords :
    illegalWord 0x0000000000 ∧ illegalWord 0xFFFFFFFFFF ∧ illegalWord 0x0100000001 ∧ illegalWord 0x3080000000 ∧
    illegalWord 0x2100000100 ∧ illegalWord 0x2200010000 ∧ illegalWord 0x2301000000 ∧
    ¬ illegalWord 0x21000000FF ∧ ¬ illegalWord 0x220000FFFF ∧ ¬ illegalWord 0x2300FFFFFF ∧ ¬ illegalWord 0x02FFFFFFFF := by
  simp [illegalWord, opField]

theorem witness_RefusedIllegal :
    (offering 0x0100000001).inputs = .command 0x0100000001 :: [] ∧ (1 : Word) ≠ 0 ∧ (0xFFFFFFFF : Word) ≠ 0 :=
  ⟨rfl, by decide, by decide⟩

theorem witness_DecodeOfEncode : (Instr.xorp1 0xFF).wf = true ∧ (Instr.xorp3 0xFFFFFF).wf = true := by decide

theorem witness_EncodeOfDecode : decode 0x21000000FF = .ok (.xorp1 0xFF) := rfl

theorem witness_StepWithoutInput : State.reset.inputs = [] := rfl

/-- Both clauses: an executed command and a refused one. -/
theorem witness_EveryCommandIsAnswered :
    (after 0x0100000000 State.reset).rsp = some ⟨.ok, 0, 0⟩ ∧
    (after 0x1200000000 State.reset).rsp = some ⟨.uninit, 0, 0⟩ := ⟨rfl, rfl⟩

theorem witness_ResponseWords :
    step (offering 0x0000000000) = .next (after 0x0000000000 State.reset) ∧
    (after 0x0000000000 State.reset).rsp = some ⟨.illegal, 0, 0⟩ := ⟨rfl, rfl⟩

theorem witness_RstTakesTheResetState :
    (State.reset.offer .rst).inputs = .rst :: [] ∧ step (State.reset.offer .rst) = .next (takeReset State.reset) :=
  ⟨rfl, rfl⟩

/-- The four clauses of R105, the separator among them. -/
theorem witness_HchrHashesOneCharacter :
    ({ State.reset with sep := [0x2F] } : State).isSep 0x2F = true ∧
    (State.reset.isSep 0x61 = false ∧ ({ State.reset with dot := true } : State).dot = true) ∧
    (State.reset.dot = false ∧ (0x2E : Word) = 0x2E) ∧
    (State.reset.isSep 0x61 = false ∧ State.reset.dot = false ∧ (0x61 : Word) ≠ 0x2E) := by decide +kernel

theorem witness_HfinFinalisesTheSeed :
    ({ State.reset with nz := true } : State).nz = true ∧ State.reset.nz = false := ⟨rfl, rfl⟩

theorem witness_ReferenceHash :
    (∀ c ∈ [97], (fun c => c == 0x2F) c = false) ∧ (fun c => c == 0x2F) 0x2F = true ∧ 0x2E ∉ [97, 98] ∧ [97] ≠ [] := by
  decide

theorem witness_SeedIgnoresWhatFollowsTheFirstDot :
    (fun c => c == 0x2F) 0x2E = false ∧ (∀ c ∈ [97] ++ [120, 46], (fun c => c == 0x2F) c = false) ∧
      0x2E ∉ [97] ∧ [97] ≠ [] := by decide

/-- Used for the history of the hash unit and for `HASH` without the leading HCLR. -/
theorem witness_ClearedHashUnit :
    State.reset.accStem = 0 ∧ State.reset.accFull = 0 ∧ State.reset.dot = false ∧ State.reset.nz = false :=
  ⟨rfl, rfl, rfl, rfl⟩

theorem witness_TwistAndInitIndexes :
    0 < 624 ∧ 226 < 227 ∧ ¬ 227 < 227 ∧ 227 < 624 ∧ 622 ≠ 623 ∧ 623 < 624 := by decide

theorem witness_NextReadsAtTheCursor :
    ({ State.reset with cursor := 623 } : State).cursor.toNat < 624 ∧ 624 ≤ State.reset.cursor.toNat := by
  decide +kernel

/-- A valid generator, and one that is not (GNEXT, XORW and the final groups). -/
theorem witness_ValidAndInvalidGenerator : (seeded 0).genValid = true ∧ State.reset.genValid = false := ⟨rfl, rfl⟩

theorem witness_SameSeedGivesTheSameAnswers :
    ∀ i ∈ [Instr.gnext, .xorw 5, .xorp1 0xFF, .gnext, .ginit 7], i.ofGenerator = true ∧ i.wf = true := by decide

theorem witness_Groups : ([1, 2, 3, 4] : List Byte).length ≤ 4 ∧ 4 ≤ 4 ∧ 3 < 4 := by decide

/-- Both sides of the bound of each final group's operand. -/
theorem witness_FinalGroupOperands :
    (0xFF : Word).toNat < 2 ^ (8 * 1) ∧ 2 ^ (8 * 1) ≤ (0x100 : Word).toNat ∧
    (0xFFFF : Word).toNat < 2 ^ (8 * 2) ∧ 2 ^ (8 * 2) ≤ (0x10000 : Word).toNat ∧
    (0xFFFFFF : Word).toNat < 2 ^ (8 * 3) ∧ 2 ^ (8 * 3) ≤ (0x1000000 : Word).toNat := by decide

theorem witness_TransformPositions : 0 < ([0x48] : List Byte).length ∧ 4 < ([1, 2, 3, 4, 5] : List Byte).length := by
  decide

theorem witness_XorsComputesTransform :
    ([0x48] : List Byte) ≠ [] ∧ (seeded 0x20D1F016).genValid = true ∧
      (seeded 0x20D1F016).mt = initArray 0x20D1F016 ∧ (seeded 0x20D1F016).cursor = 624 :=
  ⟨by decide, rfl, rfl, rfl⟩

theorem witness_ConsumersNeedAValidGenerator :
    (Instr.xorp2 0x6548).consumes = true ∧ (∀ e ∈ [HostInput.rst], ¬ initialises e) ∧
      ∃ t, exec (.xorp1 0x48) (seeded 0) = .next t :=
  ⟨rfl, by simp [initialises], _, rfl⟩

/-- RegistersChangeOnlyByTheirWriters and OnlyGinitsReadsTheSeed. -/
theorem witness_CommandsGoOn :
    (∃ t, exec .gnext (seeded 0) = .next t) ∧ (∃ t, exec .hfin State.reset = .next t) ∧ Instr.hfin ≠ .ginits :=
  ⟨⟨_, rfl⟩, ⟨_, rfl⟩, by decide⟩

/-- The clauses of the cursor's rule, at its ends. -/
theorem witness_CursorAdvancesOnePerWord :
    (seeded 0).cursor.toNat = 624 ∧ ({ seeded 0 with cursor := 623 } : State).cursor.toNat < 624 ∧
    Instr.gnext.consumes = true ∧ State.reset.genValid = false ∧ ∃ t, exec .gnext (seeded 0) = .next t :=
  ⟨rfl, by decide, rfl, rfl, _, rfl⟩

/-- Two states a refusal apart, and an input that is no status read. -/
theorem witness_RefusalsChangeNoLaterAnswer :
    SameButRefusal (seeded 0) (after 0x0000000000 (seeded 0)) ∧
    (∀ e ∈ [HostInput.command 0x0000000000, .rst], notStatusRead e) := by
  refine ⟨rfl, ?_⟩
  have hd : decode 0x0000000000 = .error .unknownOp := rfl
  intro e he w hw
  simp only [List.mem_cons, List.not_mem_nil, or_false] at he
  rcases he with rfl | rfl
  · obtain rfl := HostInput.command.inj hw
    rw [hd]; simp
  · cases hw

theorem witness_StepsGoOn : (∃ t, step State.reset = .next t) ∧ ∃ t, step (offering 0x1200000000) = .next t :=
  ⟨⟨_, rfl⟩, _, rfl⟩

/-- A valid generator in the middle of its array meets the invariant. -/
theorem witness_EveryStepKeepsTheInvariant :
    State.Inv { seeded 0 with cursor := 3, inputs := [.command 0x1200000000] } :=
  ⟨by decide, fun _ => rfl, fun _ => rfl, by simp [seeded, State.reset]⟩

/-- Two states whose unread arrays differ. -/
theorem witness_UnspecifiedArrayWordsAreNeverSeen :
    SameButUnreadMt { State.reset with mt := initArray 0 } { State.reset with mt := initArray 1 } :=
  ⟨rfl, by simp [State.reset]⟩

/-- A block whose response `{0, 0, 0}` waits. -/
def waitingPort : PortState := ⟨{ State.reset with rsp := some .done }, .responding, 1⟩

/-- The clauses of the handshake: a response held with `rsp_ready = 0`, delivered with `rsp_ready = 1`; an idle block
with a command offered and with none. -/
theorem witness_PortHandshake :
    (let i : PinsIn := ⟨false, true, 0x0100000000, false⟩
     i.rst = false ∧ waitingPort.phase = .responding ∧ i.rspReady = false ∧ waitingPort.core.rsp = some ⟨.ok, 0, 0⟩) ∧
    (let i : PinsIn := ⟨false, false, 0, true⟩
     i.rst = false ∧ waitingPort.phase = .responding ∧ i.rspReady = true) ∧
    (let i : PinsIn := ⟨false, true, 0xFFFFFFFFFF, false⟩
     i.rst = false ∧ PortState.reset.phase = .idle ∧ i.cmdValid = true) ∧
    (let i : PinsIn := ⟨false, false, 0, true⟩
     i.rst = false ∧ PortState.reset.phase = .idle ∧ i.cmdValid = false) :=
  ⟨⟨rfl, rfl, rfl, rfl⟩, ⟨rfl, rfl, rfl⟩, ⟨rfl, rfl, rfl⟩, rfl, rfl, rfl⟩

/-- `rst` on an edge of a block with a response waiting and of one with a command in flight. -/
theorem witness_RstWinsAtThePorts :
    (⟨true, true, 0, true⟩ : PinsIn).rst = true ∧ waitingPort.phase = .responding ∧
      (⟨State.reset, .busy 0x0100000000 0, 1⟩ : PortState).phase = .busy 0x0100000000 0 := ⟨rfl, rfl, rfl⟩

/-- PortsDoTheTransactionsInOrder and EveryAcceptedCommandIsAnswered: an idle block, a command offered, and edges
without `rst`, with `rsp_ready` up. -/
theorem witness_PortRuns :
    PortState.reset.phase = .idle ∧ (⟨false, true, 0x0100000000, true⟩ : PinsIn).cmdValid = true ∧
    (∀ i ∈ [(⟨false, true, 0x0100000000, true⟩ : PinsIn), ⟨false, false, 0, false⟩], i.rst = false) ∧
    ∀ j ∈ [(⟨false, false, 0, true⟩ : PinsIn)], j.rst = false ∧ j.cmdValid = false ∧ j.rspReady = true :=
  ⟨rfl, rfl, by decide, by decide⟩

end Sys2Proof.Tests
end

section
/-! SUPPORT. The scope of one step (spec/00_scope.md): the fixed parameters of R5, the open parameter SEP of R6, and
the transaction of R18. -/

namespace Sys2Proof.Machine

/-! ### What a step can do -/

/-- A step without an input waits; any other step runs the oldest input on the state without it. -/
theorem step_next_cases {s t : State} (h : step s = .next t) :
    (s.inputs = [] ∧ t = s) ∨
      ∃ e rest, s.inputs = e :: rest ∧ t = inputEffect e { s with inputs := rest } := by
  cases hs : s.inputs with
  | nil =>
    simp only [step, hs, waitForHost, Host.Outcome.next.injEq] at h
    exact .inl ⟨rfl, h.symm⟩
  | cons e rest =>
    rw [step_cons hs, Host.Outcome.next.injEq] at h
    exact .inr ⟨e, rest, rfl, h.symm⟩

/-- A command word that decodes has its command's effect. -/
theorem inputEffect_command_of_decode {w : PortWord} {i : Instr} (h : decode w = .ok i) (s : State) :
    inputEffect (.command w) s = effect i s := by
  simp only [inputEffect, h]

/-- A command word that does not decode is refused. -/
theorem inputEffect_command_of_reject {w : PortWord} {r : DecodeReject} (h : decode w = .error r) (s : State) :
    inputEffect (.command w) s = refuse .illegal s := by
  simp only [inputEffect, h]

/-- A word that decodes runs as its command. -/
theorem runsAs_of_decode {w : PortWord} {i : Instr} (h : decode w = .ok i) : RunsAs w i := by
  intro s rest hs
  rw [step_cons hs, inputEffect_command_of_decode h, exec_eq_effect]

/-! ### No operation writes SEP -/

@[simp] theorem hashChar_sep (c : Word) (s : State) : (hashChar c s).sep = s.sep := by
  unfold hashChar foldIn
  split
  · rfl
  · dsimp only
    split_ifs <;> rfl

/-- The check of GEN_VALID keeps SEP if what goes on after it does. -/
theorem withKeystream_sep {go : Word → State → State} (hgo : ∀ w t, (go w t).sep = t.sep) (s : State) :
    (withKeystream go s).sep = s.sep := by
  cases hv : s.genValid with
  | true => rw [withKeystream_valid hv, hgo, afterNext_sep]
  | false => rw [withKeystream_uninit hv, refuse_sep]

@[simp] theorem finalGroup_sep (k : Fin 5) (v : Word) (s : State) : (finalGroup k v s).sep = s.sep :=
  withKeystream_sep (by intros; rfl) s

@[simp] theorem effect_sep (i : Instr) (s : State) : (effect i s).sep = s.sep := by
  cases i with
  | hclr | hfin | ginit _ | ginits | rdst => rfl
  | hchr c => exact hashChar_sep c s
  | gnext | xorw _ => exact withKeystream_sep (by intros; rfl) s
  | xorp1 v | xorp2 v | xorp3 v => exact finalGroup_sep _ v s

@[simp] theorem inputEffect_sep (e : HostInput) (s : State) : (inputEffect e s).sep = s.sep := by
  cases e with
  | rst => rfl
  | command w =>
    cases hd : decode w with
    | ok i => rw [inputEffect_command_of_decode hd, effect_sep]
    | error r => rw [inputEffect_command_of_reject hd, refuse_sep]

theorem step_sep {s t : State} (h : step s = .next t) : t.sep = s.sep := by
  obtain ⟨-, rfl⟩ | ⟨e, rest, -, rfl⟩ := step_next_cases h
  · rfl
  · exact inputEffect_sep e _

/-- R6: the dot is no separator, whatever the parameter lists. -/
@[simp] theorem isSep_dot (s : State) : s.isSep 0x2E = false := by
  simp [State.isSep, Config.dotCp]

/-! ### The obligations -/

/-- Settles O6: the step runs the oldest input, and decoding names the command. -/
theorem stepRunsTheDecodedCommand : Obligations.StepRunsTheDecodedCommand := fun _ _ => runsAs_of_decode

/-- Settles O46: no command, refusal or reset writes the parameter, and `isSep` excludes the dot by itself. -/
theorem sepIsAParameter : Obligations.SepIsAParameter := fun _ t h => ⟨step_sep h, isSep_dot t⟩

/-- Settles O47: a comparison of the constants with R5's table. -/
theorem parametersAreThoseOfTheSpec : Obligations.ParametersAreThoseOfTheSpec := by
  unfold Obligations.ParametersAreThoseOfTheSpec
  decide

end Sys2Proof.Machine
end

section
/-! SUPPORT. The hash unit's one operation that branches, HCHR (spec/40_hash.md R105): an equation for each branch,
and what all branches leave alone. -/

namespace Sys2Proof.Machine

/-! ### HCHR, branch by branch -/

theorem hashChar_of_isSep {c : Word} {s : State} (h : s.isSep c = true) : hashChar c s = clearHash s := by
  simp [hashChar, h]

theorem hashChar_after_dot {c : Word} {s : State} (h : s.isSep c = false) (hd : s.dot = true) :
    hashChar c s = { s with accFull := foldChar s.accFull c } := by
  simp [hashChar, foldIn, h, hd]

theorem hashChar_first_dot {c : Word} {s : State} (h : s.isSep c = false) (hd : s.dot = false)
    (hc : c = Config.dotCp) : hashChar c s = { s with accFull := foldChar s.accFull c, dot := true } := by
  subst hc
  simp [hashChar, foldIn, h, hd]

theorem hashChar_in_stem {c : Word} {s : State} (h : s.isSep c = false) (hd : s.dot = false)
    (hc : c ≠ Config.dotCp) :
    hashChar c s =
      { s with accFull := foldChar s.accFull c, accStem := foldChar s.accStem c, nz := true } := by
  simp [hashChar, foldIn, h, hd, hc]

/-! ### What HCHR leaves alone, and does not read -/

/-- HCHR writes the hash unit only. -/
theorem hashChar_eq_self_but_hash (c : Word) (s : State) :
    hashChar c s = { s with
      accStem := (hashChar c s).accStem, accFull := (hashChar c s).accFull, dot := (hashChar c s).dot
      nz := (hashChar c s).nz } := by
  unfold hashChar foldIn
  split
  · rfl
  · dsimp only
    split_ifs <;> rfl

@[simp] theorem hashChar_seed (c : Word) (s : State) : (hashChar c s).seed = s.seed := by
  rw [hashChar_eq_self_but_hash]
@[simp] theorem hashChar_mt (c : Word) (s : State) : (hashChar c s).mt = s.mt := by
  rw [hashChar_eq_self_but_hash]
@[simp] theorem hashChar_cursor (c : Word) (s : State) : (hashChar c s).cursor = s.cursor := by
  rw [hashChar_eq_self_but_hash]
@[simp] theorem hashChar_genValid (c : Word) (s : State) : (hashChar c s).genValid = s.genValid := by
  rw [hashChar_eq_self_but_hash]
@[simp] theorem hashChar_errs (c : Word) (s : State) : (hashChar c s).errs = s.errs := by
  rw [hashChar_eq_self_but_hash]
@[simp] theorem hashChar_rsp (c : Word) (s : State) : (hashChar c s).rsp = s.rsp := by
  rw [hashChar_eq_self_but_hash]
@[simp] theorem hashChar_inputs (c : Word) (s : State) : (hashChar c s).inputs = s.inputs := by
  rw [hashChar_eq_self_but_hash]
@[simp] theorem hashChar_mtWritten (c : Word) (s : State) : (hashChar c s).mtWritten = s.mtWritten := by
  rw [hashChar_eq_self_but_hash]
@[simp] theorem hashChar_freeCount (c : Word) (s : State) : (hashChar c s).freeCount = s.freeCount := by
  rw [hashChar_eq_self_but_hash]

/-- HCHR reads none of SEED, MT, ERRS and the last response. -/
theorem hashChar_update (c : Word) (s : State) (x : Word) (m : Vector Word Config.stateWords) (b : Bool)
    (r : Option Response) :
    hashChar c { s with seed := x, mt := m, errs := b, rsp := r } =
      { hashChar c s with seed := x, mt := m, errs := b, rsp := r } := by
  have hsep : ({ s with seed := x, mt := m, errs := b, rsp := r } : State).isSep c = s.isSep c := rfl
  unfold hashChar foldIn
  rw [hsep]
  split
  · rfl
  · dsimp only
    split_ifs <;> rfl

end Sys2Proof.Machine
end

section
/-! SUPPORT. The commands that consume a keystream word, treated as one: they differ in their answer and in whether they
end the stream (spec/42_cipher.md R152 to R156, spec/41_generator.md R126). -/

namespace Sys2Proof.Machine

/-- A case split over the commands that treats the five consuming ones together. -/
theorem consumer_cases {motive : Instr → Prop} (hclr : motive .hclr) (hchr : ∀ c, motive (.hchr c))
    (hfin : motive .hfin) (ginit : ∀ seed, motive (.ginit seed)) (ginits : motive .ginits) (rdst : motive .rdst)
    (consumer : ∀ i : Instr, i.consumes = true → motive i) : ∀ i, motive i
  | .hclr => hclr
  | .hchr c => hchr c
  | .hfin => hfin
  | .ginit seed => ginit seed
  | .ginits => ginits
  | .rdst => rdst
  | .gnext => consumer .gnext rfl
  | .xorw v => consumer (.xorw v) rfl
  | .xorp1 v => consumer (.xorp1 v) rfl
  | .xorp2 v => consumer (.xorp2 v) rfl
  | .xorp3 v => consumer (.xorp3 v) rfl

/-- The answer of a consuming command that gets the keystream word `w`. -/
def streamAnswer (i : Instr) (w : Word) : Response :=
  match i with
  | .xorw v => .value (groupXor Config.groupBytes v w)
  | .xorp1 v => ⟨.ok, 1, groupXor 1 v w⟩
  | .xorp2 v => ⟨.ok, 2, groupXor 2 v w⟩
  | .xorp3 v => ⟨.ok, 3, groupXor 3 v w⟩
  | _ => .value w

/-- The commands that cipher a final group, after which GEN_VALID is 0. -/
def endsStream : Instr → Bool
  | .xorp1 _ | .xorp2 _ | .xorp3 _ => true
  | _ => false

theorem endsStream_eq_true {i : Instr} (h : endsStream i = true) :
    ∃ v, i = .xorp1 v ∨ i = .xorp2 v ∨ i = .xorp3 v := by
  cases i with
  | xorp1 v | xorp2 v | xorp3 v => exact ⟨v, by simp⟩
  | _ => cases h

/-- Not consumed: refused, with no other effect. -/
theorem effect_of_consumes_uninit {i : Instr} (hi : i.consumes = true) {s : State} (hv : s.genValid = false) :
    effect i s = refuse .uninit s := by
  cases i with
  | gnext | xorw _ | xorp1 _ | xorp2 _ | xorp3 _ => simp only [effect, finalGroup, withKeystream_uninit hv]
  | _ => cases hi

/-- Consumed: NEXT's state, GEN_VALID kept or cleared, and the answer. -/
theorem effect_of_consumes_valid {i : Instr} (hi : i.consumes = true) {s : State} (hv : s.genValid = true) :
    effect i s = respond (streamAnswer i (nextWord s)) { afterNext s with genValid := !endsStream i } := by
  cases i with
  | gnext | xorw _ =>
    have hkeep : ({ afterNext s with genValid := true } : State) = afterNext s := by
      rw [← hv, ← afterNext_genValid s]
    simp only [effect, withKeystream_valid hv, endsStream, Bool.not_false, hkeep, streamAnswer]
  | xorp1 _ | xorp2 _ | xorp3 _ =>
    simp only [effect, finalGroup, withKeystream_valid hv, endsStream, Bool.not_true, streamAnswer]
    rfl
  | _ => cases hi

/-- Consumed or not, only these five registers can change. -/
theorem effect_of_consumes_frame {i : Instr} (hi : i.consumes = true) (s : State) :
    effect i s = { s with
      mt := (effect i s).mt, cursor := (effect i s).cursor, genValid := (effect i s).genValid
      errs := (effect i s).errs, rsp := (effect i s).rsp } := by
  obtain hv | hv := s.genValid.eq_false_or_eq_true
  · rw [effect_of_consumes_valid hi hv]
    apply State.ext_fields <;> simp
  · rw [effect_of_consumes_uninit hi hv]
    rfl

/-- NEXT reads none of SEED, ERRS and the last response. -/
theorem afterNext_update (s : State) (x : Word) (b : Bool) (r : Option Response) :
    afterNext { s with seed := x, errs := b, rsp := r } = { afterNext s with seed := x, errs := b, rsp := r } := by
  unfold afterNext twistIfExhausted
  split <;> rfl

theorem nextWord_update (s : State) (x : Word) (b : Bool) (r : Option Response) :
    nextWord { s with seed := x, errs := b, rsp := r } = nextWord s := by
  unfold nextWord twistIfExhausted
  split <;> rfl

end Sys2Proof.Machine
end

section
/-! SUPPORT. A session as the effects of its inputs one after another, and the induction that compares two sessions over
the same inputs (spec/00_scope.md R18, spec/20_memory.md R59). -/

namespace Sys2Proof.Machine

theorem eq_effect_of_exec {i : Instr} {s t : State} (h : exec i s = .next t) : t = effect i s := by
  rw [exec_eq_effect, Host.Outcome.next.injEq] at h
  exact h.symm

/-- A session runs to its end, in the state that the inputs' effects leave one after another. -/
theorem session_runs (es : List HostInput) (s : State) :
    ∃ rs, session es s = some (es.foldl (fun u e => inputEffect e u) s, rs) := by
  induction es generalizing s with
  | nil => exact ⟨[], rfl⟩
  | cons e es ih =>
    obtain ⟨rs, h⟩ := ih (inputEffect e s)
    exact ⟨_, by rw [session_cons, h]; rfl⟩

/-- A relation that every input keeps, with the same answer on both sides, gives the same answers over a session. -/
theorem session_answers_agree {R : State → State → Prop} {P : HostInput → Prop}
    (hkeep : ∀ e s t, P e → R s t →
      R (inputEffect e s) (inputEffect e t) ∧ (inputEffect e t).rsp = (inputEffect e s).rsp)
    (es : List HostInput) (s t : State) (hes : ∀ e ∈ es, P e) (hR : R s t) :
    ∃ s' t' rs, session es s = some (s', rs) ∧ session es t = some (t', rs) ∧ R s' t' := by
  induction es generalizing s t with
  | nil => exact ⟨s, t, [], rfl, rfl, hR⟩
  | cons e es ih =>
    obtain ⟨hR', hrsp⟩ := hkeep e s t (hes e List.mem_cons_self) hR
    obtain ⟨s', t', rs, hs, ht, hend⟩ := ih _ _ (fun e' he' => hes e' (List.mem_cons_of_mem _ he')) hR'
    refine ⟨s', t', (inputEffect e s).rsp.toList ++ rs, ?_, ?_, hend⟩
    · rw [session_cons, hs]; rfl
    · rw [session_cons, ht, Option.map_some, hrsp]

end Sys2Proof.Machine
end

section
/-! SUPPORT. Which registers a command writes and reads (spec/10_state.md R20), and the cursor (R27, R28). -/

namespace Sys2Proof.Machine

/-- The accumulators and their flags are the same. -/
def SameHashUnit (s t : State) : Prop :=
  t.accStem = s.accStem ∧ t.accFull = s.accFull ∧ t.dot = s.dot ∧ t.nz = s.nz

/-- Only HCLR and HCHR write the hash unit. -/
theorem effect_sameHashUnit (i : Instr) (s : State) :
    (i = .hclr ∨ ∃ c, i = .hchr c) ∨ SameHashUnit s (effect i s) := by
  cases i using consumer_cases with
  | hclr => exact .inl (.inl rfl)
  | hchr c => exact .inl (.inr ⟨c, rfl⟩)
  | hfin | ginit _ | ginits | rdst => exact .inr ⟨rfl, rfl, rfl, rfl⟩
  | consumer i hi =>
    rw [effect_of_consumes_frame hi]
    exact .inr ⟨rfl, rfl, rfl, rfl⟩

/-- Only HFIN writes SEED. -/
theorem effect_seed (i : Instr) (s : State) : i = .hfin ∨ (effect i s).seed = s.seed := by
  cases i using consumer_cases with
  | hfin => exact .inl rfl
  | hclr | ginit _ | ginits | rdst => exact .inr rfl
  | hchr c => exact .inr (hashChar_seed c s)
  | consumer i hi =>
    rw [effect_of_consumes_frame hi]
    exact .inr rfl

/-- Only GINIT and GINITS write the marker of MT, and with them only the consuming commands MT and CURSOR. -/
theorem effect_array (i : Instr) (s : State) :
    (i = .ginits ∨ ∃ seed, i = .ginit seed) ∨
      ((effect i s).mtWritten = s.mtWritten ∧
        (i.consumes = true ∨ ((effect i s).mt = s.mt ∧ (effect i s).cursor = s.cursor))) := by
  cases i using consumer_cases with
  | ginits => exact .inl (.inl rfl)
  | ginit seed => exact .inl (.inr ⟨seed, rfl⟩)
  | hclr | hfin | rdst => exact .inr ⟨rfl, .inr ⟨rfl, rfl⟩⟩
  | hchr c => exact .inr ⟨hashChar_mtWritten c s, .inr ⟨hashChar_mt c s, hashChar_cursor c s⟩⟩
  | consumer i hi =>
    rw [effect_of_consumes_frame hi]
    exact .inr ⟨rfl, .inl hi⟩

/-- Only GINIT, GINITS and the final groups write GEN_VALID. -/
theorem effect_genValid (i : Instr) (s : State) :
    (i = .ginits ∨ ∃ seed, i = .ginit seed) ∨ (∃ v, i = .xorp1 v ∨ i = .xorp2 v ∨ i = .xorp3 v) ∨
      (effect i s).genValid = s.genValid := by
  cases i using consumer_cases with
  | ginits => exact .inl (.inl rfl)
  | ginit seed => exact .inl (.inr ⟨seed, rfl⟩)
  | hclr | hfin | rdst => exact .inr (.inr rfl)
  | hchr c => exact .inr (.inr (hashChar_genValid c s))
  | consumer i hi =>
    right
    cases hv : s.genValid with
    | false => simp [effect_of_consumes_uninit hi hv, hv]
    | true =>
      cases hend : endsStream i with
      | true => exact .inl (endsStream_eq_true hend)
      | false => simp [effect_of_consumes_valid hi hv, hend]

/-- Only a refused command writes ERRS. -/
theorem effect_errs (i : Instr) (s : State) :
    (i.consumes = true ∧ s.genValid = false) ∨ (effect i s).errs = s.errs := by
  cases i using consumer_cases with
  | hclr | hfin | ginit _ | ginits | rdst => exact .inr rfl
  | hchr c => exact .inr (hashChar_errs c s)
  | consumer i hi =>
    cases hv : s.genValid with
    | true => simp [effect_of_consumes_valid hi hv]
    | false => exact .inl ⟨hi, rfl⟩

/-- No command writes what the host drives next, or the reset counter. -/
theorem effect_inputs_freeCount (i : Instr) (s : State) :
    (effect i s).inputs = s.inputs ∧ (effect i s).freeCount = s.freeCount := by
  cases i using consumer_cases with
  | hclr | hfin | ginit _ | ginits | rdst => exact ⟨rfl, rfl⟩
  | hchr c => exact ⟨hashChar_inputs c s, hashChar_freeCount c s⟩
  | consumer i hi =>
    rw [effect_of_consumes_frame hi]
    exact ⟨rfl, rfl⟩

/-- Settles O42: one lemma for each group of registers. -/
theorem registersChangeOnlyByTheirWriters : Obligations.RegistersChangeOnlyByTheirWriters := by
  intro i s t h
  obtain rfl := eq_effect_of_exec h
  exact ⟨effect_sameHashUnit i s, effect_seed i s, effect_array i s, effect_genValid i s, effect_errs i s,
    effect_sep i s, effect_inputs_freeCount i s⟩

/-- With another value in SEED, every command but GINITS has the same effect on everything else. -/
theorem effect_update_seed {i : Instr} (hi : i ≠ .ginits) (s : State) (x : Word) :
    effect i { s with seed := x } = { effect i s with seed := if i = .hfin then (effect i s).seed else x } := by
  cases i using consumer_cases with
  | ginits => exact absurd rfl hi
  | hclr | hfin | ginit _ | rdst => rfl
  | hchr c => simp [effect, respond, hashChar_update c s x s.mt s.errs s.rsp]
  | consumer i hc =>
    have hne : i ≠ .hfin := by rintro rfl; cases hc
    obtain hv | hv := s.genValid.eq_false_or_eq_true
    · rw [effect_of_consumes_valid hc (s := { s with seed := x }) hv, effect_of_consumes_valid hc hv,
        nextWord_update s x s.errs s.rsp, afterNext_update s x s.errs s.rsp]
      simp [respond, hne]
    · rw [effect_of_consumes_uninit hc (s := { s with seed := x }) hv, effect_of_consumes_uninit hc hv, if_neg hne]
      rfl

/-- Settles O43: the state is the register update that `effect_update_seed` names. -/
theorem onlyGinitsReadsTheSeed : Obligations.OnlyGinitsReadsTheSeed := by
  intro i s t x hi h
  obtain rfl := eq_effect_of_exec h
  rw [exec_eq_effect, effect_update_seed hi]

/-- Settles O44: the consuming commands by NEXT's cursor, the others by the register table. -/
theorem cursorAdvancesOnePerWord : Obligations.CursorAdvancesOnePerWord := by
  intro i s t hle h
  obtain rfl := eq_effect_of_exec h
  have hnext : i.consumes = true → s.genValid = true →
      (effect i s).cursor.toNat = if s.cursor.toNat < 624 then s.cursor.toNat + 1 else 1 := by
    intro hi hv
    rw [effect_of_consumes_valid hi hv]
    exact afterNext_cursor_toNat s
  refine ⟨fun hi hv hlt => ?_, fun hi hv heq => ?_, fun hi hv => ?_, ?_, ?_⟩
  · rw [hnext hi hv, if_pos hlt]
  · rw [hnext hi hv, if_neg (by omega)]
  · rw [effect_of_consumes_uninit hi hv, refuse_cursor]
  · rintro (rfl | ⟨seed, rfl⟩) <;> rfl
  · rintro (rfl | ⟨c, rfl⟩ | rfl | rfl)
    · rfl
    · exact hashChar_cursor c s
    · rfl
    · rfl

end Sys2Proof.Machine
end

section
/-! SUPPORT. Reset (spec/10_state.md R40 to R45) and the invariants of R35 (a), (b), (d) with R73's response format. -/

namespace Sys2Proof.Machine

/-- Settles O10: the free words and the reset counter are the witnesses. -/
theorem rstTakesTheResetState : Obligations.RstTakesTheResetState :=
  ⟨fun _ _ h => ⟨_, _, step_cons h⟩, fun _ => rfl⟩

/-- Settles O11: field by field, STATUS by evaluation. -/
theorem resetStateHasTheResetValues : Obligations.ResetStateHasTheResetValues :=
  ⟨rfl, rfl, rfl, rfl, rfl, rfl, rfl, rfl, rfl, rfl⟩

/-! ### Well-formed answers (R73) -/

theorem done_wf : Response.done.wf := ⟨fun h => absurd rfl h, by decide⟩

theorem value_wf (v : Word) : (Response.value v).wf := ⟨fun h => absurd rfl h, v.isLt⟩

theorem refusal_wf (st : Status) : (Response.refusal st).wf := ⟨fun _ => rfl, Nat.one_pos⟩

/-- R151: an output group of `m` bytes fits in them. -/
theorem groupXor_toNat_lt (m : Nat) (v w : Word) : (groupXor m v w).toNat < 2 ^ (8 * m) := by
  have hmask : (groupMask m).toNat ≤ 2 ^ (8 * m) - 1 := by
    rw [groupMask, BitVec.toNat_ofNat]
    exact Nat.mod_le _ _
  have hle : (groupXor m v w).toNat ≤ (groupMask m).toNat := by
    rw [groupXor, BitVec.toNat_and]
    exact Nat.and_le_right
  have := Nat.two_pow_pos (8 * m)
  omega

theorem streamAnswer_wf (i : Instr) (w : Word) : (streamAnswer i w).wf := by
  cases i with
  | xorp1 v | xorp2 v | xorp3 v => exact ⟨fun h => absurd rfl h, groupXor_toNat_lt _ v w⟩
  | _ => exact value_wf _

/-! ### The invariant, operation by operation -/

theorem respond_inv {r : Response} {s : State} (hr : r.wf) (h : s.Inv) : (respond r s).Inv where
  cursor_le := h.cursor_le
  valid_written := h.valid_written
  accs_eq := h.accs_eq
  rsp_wf := by rintro _ ⟨⟩; exact hr

theorem refuse_inv (st : Status) {s : State} (h : s.Inv) : (refuse st s).Inv :=
  respond_inv (refusal_wf st) ⟨h.cursor_le, h.valid_written, h.accs_eq, h.rsp_wf⟩

theorem clearHash_inv {s : State} (h : s.Inv) : (clearHash s).Inv :=
  ⟨h.cursor_le, h.valid_written, fun _ => rfl, h.rsp_wf⟩

theorem takeReset_inv (s : State) : (takeReset s).Inv :=
  ⟨Nat.le_refl 624, nofun, fun _ => rfl, nofun⟩

theorem startGen_inv (seed : Word) {s : State} (h : s.Inv) : (startGen seed s).Inv :=
  respond_inv done_wf ⟨Nat.le_refl 624, fun _ => rfl, h.accs_eq, h.rsp_wf⟩

/-- Before the first dot a character folds into both accumulators; from it on, R35 (d) asks nothing. -/
theorem hashChar_accs_eq (c : Word) {s : State} (h : s.dot = false → s.accStem = s.accFull) :
    (hashChar c s).dot = false → (hashChar c s).accStem = (hashChar c s).accFull := by
  cases hsep : s.isSep c with
  | true => simp [hashChar_of_isSep hsep]
  | false =>
    cases hd : s.dot with
    | true => simp [hashChar_after_dot hsep hd, hd]
    | false =>
      by_cases hc : c = Config.dotCp
      · simp [hashChar_first_dot hsep hd hc]
      · simp [hashChar_in_stem hsep hd hc, h hd]

theorem hashChar_inv (c : Word) {s : State} (h : s.Inv) : (hashChar c s).Inv where
  cursor_le := by simpa using h.cursor_le
  valid_written := by simpa using h.valid_written
  accs_eq := hashChar_accs_eq c h.accs_eq
  rsp_wf := by simpa using h.rsp_wf

theorem afterNext_cursor_le {s : State} : (afterNext s).cursor.toNat ≤ 624 := by
  rw [afterNext_cursor_toNat]
  split <;> omega

theorem effect_inv (i : Instr) {s : State} (h : s.Inv) : (effect i s).Inv := by
  cases i using consumer_cases with
  | hclr => exact respond_inv done_wf (clearHash_inv h)
  | hchr c => exact respond_inv done_wf (hashChar_inv c h)
  | hfin => exact respond_inv (value_wf _) ⟨h.cursor_le, h.valid_written, h.accs_eq, h.rsp_wf⟩
  | ginit seed => exact startGen_inv seed h
  | ginits => exact startGen_inv s.seed h
  | rdst => exact respond_inv (value_wf _) h
  | consumer i hi =>
    cases hv : s.genValid with
    | true =>
      rw [effect_of_consumes_valid hi hv]
      refine respond_inv (streamAnswer_wf i _) ⟨afterNext_cursor_le, fun _ => ?_, ?_, ?_⟩
      · simpa using h.valid_written hv
      · simpa using h.accs_eq
      · simpa using h.rsp_wf
    | false =>
      rw [effect_of_consumes_uninit hi hv]
      exact refuse_inv .uninit h

theorem inputEffect_inv (e : HostInput) {s : State} (h : s.Inv) : (inputEffect e s).Inv := by
  cases e with
  | rst => exact takeReset_inv s
  | command w =>
    cases hd : decode w with
    | ok i => rw [inputEffect_command_of_decode hd]; exact effect_inv i h
    | error r => rw [inputEffect_command_of_reject hd]; exact refuse_inv .illegal h

/-- Settles O48: every command, refusal and reset keeps the invariant, and no part of it reads the inputs. -/
theorem everyStepKeepsTheInvariant : Obligations.EveryStepKeepsTheInvariant := by
  intro s t h hstep
  obtain ⟨-, rfl⟩ | ⟨e, rest, -, rfl⟩ := step_next_cases hstep
  · exact h
  · exact inputEffect_inv e ⟨h.cursor_le, h.valid_written, h.accs_eq, h.rsp_wf⟩

/-- Settles O49: an invalid generator, equal accumulators and no answer ask for nothing more than the cursor 624. -/
theorem resetStateMeetsTheInvariant : Obligations.ResetStateMeetsTheInvariant :=
  ⟨Nat.le_refl 624, nofun, fun _ => rfl, nofun⟩

end Sys2Proof.Machine
end

section
/-! SUPPORT. What the host cannot see: the refusals before (spec/10_state.md R30, spec/60_exceptions.md R194) and the
words of an array that is not valid (R43). -/

namespace Sys2Proof.Machine

/-! ### Refusals -/

/-- A command but RDST gives the same answer with other values in ERRS and the last response, and the same state but
for those two. -/
theorem effect_sameButRefusal {i : Instr} (hi : i ≠ .rdst) (s : State) (b : Bool) (r : Option Response) :
    SameButRefusal (effect i s) (effect i { s with errs := b, rsp := r }) ∧
      (effect i { s with errs := b, rsp := r }).rsp = (effect i s).rsp := by
  cases i using consumer_cases with
  | rdst => exact absurd rfl hi
  | hclr | hfin | ginit _ | ginits => exact ⟨rfl, rfl⟩
  | hchr c => simp [SameButRefusal, effect, respond, hashChar_update c s s.seed s.mt b r]
  | consumer i hc =>
    obtain hv | hv := s.genValid.eq_false_or_eq_true
    · rw [effect_of_consumes_valid hc (s := { s with errs := b, rsp := r }) hv, effect_of_consumes_valid hc hv,
        nextWord_update s s.seed b r, afterNext_update s s.seed b r]
      simp [SameButRefusal, respond]
    · rw [effect_of_consumes_uninit hc (s := { s with errs := b, rsp := r }) hv, effect_of_consumes_uninit hc hv]
      exact ⟨rfl, rfl⟩

theorem inputEffect_sameButRefusal {e : HostInput} {s t : State} (he : notStatusRead e) (h : SameButRefusal s t) :
    SameButRefusal (inputEffect e s) (inputEffect e t) ∧ (inputEffect e t).rsp = (inputEffect e s).rsp := by
  rw [h]
  cases e with
  | rst => exact ⟨rfl, rfl⟩
  | command w =>
    cases hd : decode w with
    | error r =>
      simp only [inputEffect_command_of_reject hd]
      exact ⟨rfl, rfl⟩
    | ok i =>
      simp only [inputEffect_command_of_decode hd]
      have hi : i ≠ .rdst := by rintro rfl; exact he w rfl hd
      exact effect_sameButRefusal hi s t.errs t.rsp

/-- Settles O45: every input but an RDST keeps the two states a refusal apart, with the same answer. -/
theorem refusalsChangeNoLaterAnswer : Obligations.RefusalsChangeNoLaterAnswer :=
  session_answers_agree fun _ _ _ => inputEffect_sameButRefusal

/-! ### The unread array -/

/-- Two states that differ in an unread array are equal, or their generators are not valid. -/
theorem SameButUnreadMt.cases {s t : State} (h : SameButUnreadMt s t) :
    t = s ∨ s.genValid = false ∧ ∃ m, t = { s with mt := m } := by
  obtain ⟨heq, hmt⟩ := h
  obtain hv | hv := s.genValid.eq_false_or_eq_true
  · left
    rw [heq, hmt hv]
  · exact .inr ⟨hv, _, heq⟩

theorem SameButUnreadMt.refl (s : State) : SameButUnreadMt s s := ⟨rfl, fun _ => rfl⟩

theorem sameButUnreadMt_of_invalid {s t : State} (hv : s.genValid = false) (h : t = { s with mt := t.mt }) :
    SameButUnreadMt s t :=
  ⟨h, fun hv' => absurd (hv.symm.trans hv') Bool.false_ne_true⟩

/-- While the generator is not valid a command reads no word of the array: it refuses, overwrites the array, or leaves
it alone. -/
theorem effect_sameButUnreadMt (i : Instr) {s : State} (hv : s.genValid = false)
    (m : Vector Word Config.stateWords) :
    SameButUnreadMt (effect i s) (effect i { s with mt := m }) ∧
      (effect i { s with mt := m }).rsp = (effect i s).rsp := by
  cases i using consumer_cases with
  | hclr | hfin | rdst => exact ⟨sameButUnreadMt_of_invalid hv rfl, rfl⟩
  | hchr c =>
    refine ⟨sameButUnreadMt_of_invalid ((hashChar_genValid c s).trans hv) ?_, rfl⟩
    simp [effect, respond, hashChar_update c s s.seed m s.errs s.rsp]
  | ginit _ | ginits => exact ⟨SameButUnreadMt.refl _, rfl⟩
  | consumer i hc =>
    rw [effect_of_consumes_uninit hc (s := { s with mt := m }) hv, effect_of_consumes_uninit hc hv]
    exact ⟨sameButUnreadMt_of_invalid hv rfl, rfl⟩

theorem inputEffect_sameButUnreadMt (e : HostInput) {s t : State} (h : SameButUnreadMt s t) :
    SameButUnreadMt (inputEffect e s) (inputEffect e t) ∧ (inputEffect e t).rsp = (inputEffect e s).rsp := by
  obtain rfl | ⟨hv, m, rfl⟩ := h.cases
  · exact ⟨SameButUnreadMt.refl _, rfl⟩
  · cases e with
    | rst => exact ⟨SameButUnreadMt.refl _, rfl⟩
    | command w =>
      cases hd : decode w with
      | error r =>
        simp only [inputEffect_command_of_reject hd]
        exact ⟨sameButUnreadMt_of_invalid hv rfl, rfl⟩
      | ok i =>
        simp only [inputEffect_command_of_decode hd]
        exact effect_sameButUnreadMt i hv m

/-- Settles O50: every input keeps the two states apart in an unread array at most, with the same answer. -/
theorem unspecifiedArrayWordsAreNeverSeen : Obligations.UnspecifiedArrayWordsAreNeverSeen :=
  fun es s t h =>
    session_answers_agree (P := fun _ => True) (fun e _ _ _ => inputEffect_sameButUnreadMt e) es s t
      (fun _ _ => trivial) h

end Sys2Proof.Machine
end

section
/-! SUPPORT. The history of the hash unit (spec/10_state.md R35 (c), (d), spec/40_hash.md R102, R104, R105). -/

namespace Sys2Proof.Machine

/-! ### The reference functions, one code point at a time -/

theorem codePoints_append (u v : List Word) : codePoints (u ++ v) = codePoints u ++ codePoints v :=
  List.map_append

theorem foldChar_toNat (a c : Word) : (foldChar a c).toNat = foldStep a.toNat c.toNat := by
  simp [foldChar, foldStep]

theorem fold_append_singleton (u : List Nat) (c : Nat) : fold (u ++ [c]) = foldStep (fold u) c := by
  simp [fold]

/-- Characters after the first dot do not reach the stem. -/
theorem beforeDot_append_of_mem {u : List Nat} (h : 0x2E ∈ u) (v : List Nat) :
    beforeDot (u ++ v) = beforeDot u := by
  induction u with
  | nil => cases h
  | cons a u ih =>
    by_cases ha : a = Config.dotCp.toNat
    · simp [beforeDot, ha]
    · have hu : 0x2E ∈ u := (List.mem_cons.mp h).resolve_left (Ne.symm ha)
      simpa [beforeDot, ha] using ih hu

theorem beforeDot_append_of_not_mem {u : List Nat} (h : 0x2E ∉ u) (v : List Nat) :
    beforeDot (u ++ v) = u ++ beforeDot v := by
  refine List.takeWhile_append_of_pos fun a ha => ?_
  have hne : a ≠ 0x2E := by rintro rfl; exact h ha
  exact bne_iff_ne.mpr hne

theorem beforeDot_of_not_mem {u : List Nat} (h : 0x2E ∉ u) : beforeDot u = u := by
  simpa [beforeDot] using beforeDot_append_of_not_mem h []

/-! ### The history as an invariant -/

/-- The accumulators and flags are those of the code points `u`. -/
structure HashUnitHolds (u : List Word) (s : State) : Prop where
  accFull : s.accFull.toNat = fold (codePoints u)
  accStem : s.accStem.toNat = fold (beforeDot (codePoints u))
  dot : s.dot = decide (0x2E ∈ codePoints u)
  nz : s.nz = decide (beforeDot (codePoints u) ≠ [])

theorem hashUnitHolds_of_cleared {s : State} (hstem : s.accStem = 0) (hfull : s.accFull = 0) (hdot : s.dot = false)
    (hnz : s.nz = false) : HashUnitHolds [] s :=
  ⟨congrArg BitVec.toNat hfull, congrArg BitVec.toNat hstem, hdot, hnz⟩

theorem HashUnitHolds.of_sameHashUnit {u : List Word} {s t : State} (h : HashUnitHolds u s) (hst : SameHashUnit s t) :
    HashUnitHolds u t := by
  obtain ⟨hstem, hfull, hdot, hnz⟩ := hst
  exact ⟨hfull ▸ h.accFull, hstem ▸ h.accStem, hdot ▸ h.dot, hnz ▸ h.nz⟩

/-- The full accumulator takes every character that is no separator. -/
theorem HashUnitHolds.foldChar_accFull {u : List Word} {s : State} (h : HashUnitHolds u s) (c : Word) :
    (foldChar s.accFull c).toNat = fold (codePoints (u ++ [c])) := by
  rw [codePoints_append, foldChar_toNat, h.accFull]
  exact (fold_append_singleton _ _).symm

/-- HCHR of no separator appends its character, in each of the three cases of R105. -/
theorem HashUnitHolds.append_char {u : List Word} {s : State} (h : HashUnitHolds u s) {c : Word}
    (hsep : s.isSep c = false) : HashUnitHolds (u ++ [c]) (hashChar c s) := by
  have happ : codePoints (u ++ [c]) = codePoints u ++ [c.toNat] := codePoints_append u [c]
  have hfull := h.foldChar_accFull c
  cases hd : s.dot with
  | true =>
    have hmem : 0x2E ∈ codePoints u := of_decide_eq_true (h.dot.symm.trans hd)
    have hstem : beforeDot (codePoints (u ++ [c])) = beforeDot (codePoints u) := by
      rw [happ, beforeDot_append_of_mem hmem]
    rw [hashChar_after_dot hsep hd]
    refine ⟨hfull, ?_, ?_, ?_⟩
    · rw [hstem]; exact h.accStem
    · simp [happ, hmem, hd]
    · rw [hstem]; exact h.nz
  | false =>
    have hmem : 0x2E ∉ codePoints u := of_decide_eq_false (h.dot.symm.trans hd)
    by_cases hc : c = Config.dotCp
    · have hstem : beforeDot (codePoints (u ++ [c])) = beforeDot (codePoints u) := by
        rw [happ, beforeDot_append_of_not_mem hmem, beforeDot_of_not_mem hmem, hc]
        simp [beforeDot]
      rw [hashChar_first_dot hsep hd hc]
      refine ⟨hfull, ?_, ?_, ?_⟩
      · rw [hstem]; exact h.accStem
      · rw [happ, hc]; simp [Config.dotCp]
      · rw [hstem]; exact h.nz
    · have hne : 0x2E ≠ c.toNat := fun he => hc (BitVec.eq_of_toNat_eq he.symm)
      have hmem' : 0x2E ∉ codePoints (u ++ [c]) := by simp [happ, hmem, hne]
      have hstem : (foldChar s.accStem c).toNat = fold (codePoints (u ++ [c])) := by
        rw [foldChar_toNat, h.accStem, beforeDot_of_not_mem hmem, happ, fold_append_singleton]
      rw [hashChar_in_stem hsep hd hc]
      refine ⟨hfull, ?_, ?_, ?_⟩
      · rw [beforeDot_of_not_mem hmem']; exact hstem
      · simp [hmem', hd]
      · rw [beforeDot_of_not_mem hmem', happ]; simp

/-! ### One input, then any list of inputs -/

theorem hashedStep_of_decode {w : PortWord} {i : Instr} (h : decode w = .ok i)
    (hi : ¬ (i = .hclr ∨ ∃ c, i = .hchr c)) (isSep : Word → Bool) (u : List Word) :
    hashedStep isSep u (.command w) = u := by
  cases i with
  | hclr => exact absurd (.inl rfl) hi
  | hchr c => exact absurd (.inr ⟨c, rfl⟩) hi
  | _ => simp only [hashedStep, h]

theorem inputEffect_hashUnitHolds {u : List Word} {s : State} (h : HashUnitHolds u s) (e : HostInput) :
    HashUnitHolds (hashedStep s.isSep u e) (inputEffect e s) := by
  cases e with
  | rst => exact hashUnitHolds_of_cleared rfl rfl rfl rfl
  | command w =>
    cases hd : decode w with
    | error r =>
      simp only [hashedStep, hd, inputEffect_command_of_reject hd]
      exact h.of_sameHashUnit ⟨rfl, rfl, rfl, rfl⟩
    | ok i =>
      rw [inputEffect_command_of_decode hd]
      by_cases hi : i = .hclr ∨ ∃ c, i = .hchr c
      · obtain rfl | ⟨c, rfl⟩ := hi
        · simp only [hashedStep, hd]
          exact hashUnitHolds_of_cleared rfl rfl rfl rfl
        · simp only [hashedStep, hd, effect]
          refine HashUnitHolds.of_sameHashUnit (s := hashChar c s) ?_ ⟨rfl, rfl, rfl, rfl⟩
          cases hsep : s.isSep c with
          | true =>
            rw [hashChar_of_isSep hsep]
            exact hashUnitHolds_of_cleared rfl rfl rfl rfl
          | false => exact h.append_char hsep
      · rw [hashedStep_of_decode hd hi]
        exact h.of_sameHashUnit ((effect_sameHashUnit i s).resolve_left hi)

@[simp] theorem inputEffect_isSep (e : HostInput) (s : State) : (inputEffect e s).isSep = s.isSep := by
  funext c
  simp [State.isSep]

theorem hashUnitHolds_hashedSince (es : List HostInput) {u : List Word} {s : State} (h : HashUnitHolds u s) :
    HashUnitHolds (hashedSince s.isSep u es) (es.foldl (fun u e => inputEffect e u) s) := by
  induction es generalizing u s with
  | nil => exact h
  | cons e es ih =>
    have := ih (inputEffect_hashUnitHolds h e)
    rwa [inputEffect_isSep] at this

/-- Settles O17: the history is an invariant of every input, and it holds of the empty list in a cleared unit. -/
theorem hashUnitHoldsTheCodePointsSinceItsClearing : Obligations.HashUnitHoldsTheCodePointsSinceItsClearing := by
  intro es s hstem hfull hdot hnz
  obtain ⟨rs, hrun⟩ := session_runs es s
  obtain ⟨hF, hS, hD, hN⟩ := hashUnitHolds_hashedSince es (hashUnitHolds_of_cleared hstem hfull hdot hnz)
  exact ⟨_, rs, hrun, hF, hS, hD, hN⟩

end Sys2Proof.Machine
end

section
/-! SUPPORT. The bytes of a group of stream bytes (spec/20_memory.md R53). -/

namespace Sys2Proof.Machine

@[simp] theorem bytesOf_length (m : Nat) (v : Word) : (bytesOf m v).length = m := by
  simp [bytesOf]

@[simp] theorem bytesOf_getElem {m i : Nat} (v : Word) (h : i < (bytesOf m v).length) :
    (bytesOf m v)[i] = byteOf v i := by
  simp [bytesOf]

theorem byteOf_groupOf_cons_zero (b : Byte) (bs : List Byte) : byteOf (groupOf (b :: bs)) 0 = b := by
  ext j hj
  have hbit : j < 32 := by omega
  simp [byteOf, groupOf, hj, hbit]

/-- The first byte fills byte 0 alone, and the bytes after it stand one byte higher. -/
theorem byteOf_groupOf_cons_succ (b : Byte) (bs : List Byte) {i : Nat} (hi : i < 3) :
    byteOf (groupOf (b :: bs)) (i + 1) = byteOf (groupOf bs) i := by
  ext j hj
  have hb : b.getLsbD (8 * (i + 1) + j) = false := BitVec.getLsbD_of_ge b _ (by omega)
  have hbit : 8 * (i + 1) + j < 32 := by omega
  have hhigh : ¬ 8 * (i + 1) + j < 8 := by omega
  have hshift : 8 * (i + 1) + j - 8 = 8 * i + j := by omega
  have hrest : 8 * i + j < 32 := by omega
  simp [byteOf, groupOf, hb, hbit, hhigh, hshift, BitVec.getLsbD_eq_getElem hrest]

/-- Byte `i` of a group's value is stream byte `i`; bytes past the fourth do not reach the 32-bit value. -/
theorem byteOf_groupOf (bs : List Byte) {i : Nat} (hi : i < 4) (hlen : i < bs.length) :
    byteOf (groupOf bs) i = bs[i] := by
  induction bs generalizing i with
  | nil => cases hlen
  | cons b bs ih =>
    cases i with
    | zero => exact byteOf_groupOf_cons_zero b bs
    | succ i =>
      rw [byteOf_groupOf_cons_succ b bs (by omega)]
      exact ih (by omega) (Nat.lt_of_succ_lt_succ hlen)

theorem bytesOf_groupOf {bs : List Byte} (h : bs.length ≤ 4) : bytesOf bs.length (groupOf bs) = bs := by
  refine List.ext_getElem (bytesOf_length _ _) fun i _ hi => ?_
  rw [bytesOf_getElem, byteOf_groupOf bs (hi.trans_le h) hi]

/-- Settles O29: both clauses read the group's value byte by byte. -/
theorem groupsAreLittleEndian : Obligations.GroupsAreLittleEndian := by
  refine ⟨fun b0 b1 b2 b3 => ?_, fun _ => bytesOf_groupOf⟩
  have hbyte : ∀ i (hi : i < 4), byteOf (groupOf [b0, b1, b2, b3]) i = [b0, b1, b2, b3][i] :=
    fun i hi => byteOf_groupOf [b0, b1, b2, b3] hi hi
  exact ⟨hbyte 0 (by decide), hbyte 1 (by decide), hbyte 2 (by decide), hbyte 3 (by decide)⟩

end Sys2Proof.Machine
end

section
/-! SUPPORT. The two directions of the encoding (spec/30_encoding.md R72 to R78): the round trips, the opcode map by
mask and match (R76), and which words are no command (R77). -/

namespace Sys2Proof

/-! ### The round trips -/

theorem decodeP_of_fits {k : Nat} {mk : Word → Instr} {arg : Word} (h : fitsBytes k arg = true) :
    decodeP k mk arg = .ok (mk arg) := by
  rw [decodeP, if_pos h]

theorem decode_encode {i : Instr} (h : i.wf = true) : decode (encode i) = .ok i := by
  rw [encode, commandWord, decode_append]
  cases i with
  | hclr | hfin | ginits | gnext | rdst => rfl
  | hchr _ | ginit _ | xorw _ => rfl
  | xorp1 v | xorp2 v | xorp3 v => exact decodeP_of_fits h

/-- A word decodes to a command exactly when its two fields are the command's, and the operand is admitted. -/
theorem decode_eq_ok_iff (w : PortWord) (i : Instr) :
    decode w = .ok i ↔ opField w = i.op ∧ argField w = i.arg ∧ i.wf = true := by
  constructor
  · intro h
    obtain ⟨hwf, hop, harg⟩ := decodeFields_ok h
    exact ⟨hop, harg, hwf⟩
  · rintro ⟨hop, harg, hwf⟩
    rw [← append_fields w, hop, harg]
    exact decode_encode hwf

theorem encode_of_decode {w : PortWord} {i : Instr} (h : decode w = .ok i) : i.wf = true ∧ encode i = w := by
  obtain ⟨hop, harg, hwf⟩ := (decode_eq_ok_iff w i).mp h
  exact ⟨hwf, by rw [encode, commandWord, ← hop, ← harg, append_fields]⟩

/-! ### Operands by their width -/

/-- How many low bits of `arg` the format of the command leaves to its operand (R74). -/
def Instr.operandBits : Instr → Nat
  | .hclr | .hfin | .ginits | .gnext | .rdst => 0
  | .hchr _ | .ginit _ | .xorw _ => 32
  | .xorp1 _ => 8
  | .xorp2 _ => 16
  | .xorp3 _ => 24

theorem Instr.operandBits_le (i : Instr) : i.operandBits ≤ 32 := by
  cases i <;> simp [operandBits]

theorem Instr.wf_iff (i : Instr) : i.wf = true ↔ i.arg.toNat < 2 ^ i.operandBits := by
  cases i with
  | hclr | hfin | ginits | gnext | rdst => decide
  | hchr v | ginit v | xorw v => exact iff_of_true rfl v.isLt
  | xorp1 v | xorp2 v | xorp3 v => exact decide_eq_true_iff

theorem Instr.tableMask_eq (i : Instr) : i.tableMask = BitVec.allOnes 40 <<< i.operandBits := by
  cases i <;> simp only [tableMask, operandBits] <;> decide

theorem Instr.tableMatch_eq (i : Instr) : i.tableMatch = i.op ++ (0 : Word) := by
  cases i <;> simp only [tableMatch, op] <;> decide

theorem argField_toNat (w : PortWord) : (argField w).toNat = w.toNat % 2 ^ 32 := by
  simp [argField]

/-- An operand of `k` bits is the low `k` bits of the word. -/
theorem argField_eq_setWidth {w : PortWord} {k : Nat} (hk : k ≤ 32) (h : (argField w).toNat < 2 ^ k) :
    argField w = (w.setWidth k).setWidth 32 := by
  apply BitVec.eq_of_toNat_eq
  have hlow : (argField w).toNat % 2 ^ k = w.toNat % 2 ^ k := by
    rw [argField_toNat, Nat.mod_mod_of_dvd _ (Nat.pow_dvd_pow 2 hk)]
  rw [BitVec.toNat_setWidth, BitVec.toNat_setWidth, ← hlow, Nat.mod_eq_of_lt h, Nat.mod_eq_of_lt (argField w).isLt]

/-- The field between bit `k` and bit 31 is 0 exactly when the operand fits in `k` bits. -/
theorem extract_above_eq_zero_iff (w : PortWord) {k m : Nat} (hkm : k + m = 32) :
    w.extractLsb' k m = 0 ↔ (argField w).toNat < 2 ^ k := by
  have hdiv : (w.extractLsb' k m).toNat = (argField w).toNat / 2 ^ k := by
    rw [argField_toNat, ← hkm, Nat.pow_add, Nat.mod_mul_right_div_self, BitVec.extractLsb'_toNat,
      Nat.shiftRight_eq_div_pow]
  rw [← BitVec.toNat_inj, hdiv]
  simp

/-! ### The opcode map by mask and match (R76) -/

/-- A word under a mask that keeps the bits from `k` on is the operation code alone exactly when that is its own and
its operand fits in `k` bits. -/
theorem masked_eq_iff (w : PortWord) (op : BitVec 8) {k : Nat} (hk : k ≤ 32) :
    w &&& BitVec.allOnes 40 <<< k = op ++ (0 : Word) ↔ opField w = op ∧ (argField w).toNat < 2 ^ k := by
  constructor
  · intro h
    have hbit : ∀ j, k ≤ j → j < 40 → w.getLsbD j = (op ++ (0 : Word)).getLsbD j := by
      intro j hkj hj
      have hmask : (BitVec.allOnes 40 <<< k).getLsbD j = true := by
        rw [BitVec.getLsbD_shiftLeft, BitVec.getLsbD_allOnes]
        simp [hj, hkj]
        omega
      rw [← h, BitVec.getLsbD_and, hmask, Bool.and_true]
    refine ⟨?_, (extract_above_eq_zero_iff w (m := 32 - k) (by omega)).mp ?_⟩
    · rw [← opField_append op 0]
      ext j hj
      simpa [opField] using hbit (32 + j) (by omega) (by omega)
    · ext j hj
      have hlow : k + j < 32 := by omega
      rw [BitVec.getElem_extractLsb', hbit (k + j) (by omega) (by omega), BitVec.getLsbD_append, if_pos hlow]
      simp
  · rintro ⟨rfl, hfit⟩
    conv_lhs => rw [← append_fields w]
    exact Laws.EncodesInRow.mask_operand _ _ k _ hfit rfl hk

theorem decode_eq_ok_iff_table (w : PortWord) (i : Instr) :
    decode w = .ok i ↔ w &&& i.tableMask = i.tableMatch ∧ i.arg = (w.setWidth i.operandBits).setWidth 32 := by
  rw [Instr.tableMask_eq, Instr.tableMatch_eq, masked_eq_iff w i.op i.operandBits_le, decode_eq_ok_iff, i.wf_iff]
  constructor
  · rintro ⟨hop, harg, hfit⟩
    rw [← harg] at hfit ⊢
    exact ⟨⟨hop, hfit⟩, argField_eq_setWidth i.operandBits_le hfit⟩
  · rintro ⟨⟨hop, hfit⟩, harg⟩
    rw [← argField_eq_setWidth i.operandBits_le hfit] at harg
    exact ⟨hop, harg.symm, harg ▸ hfit⟩

/-- A row of format N has no operand field. -/
theorem decode_formatN_iff (w : PortWord) (i : Instr) (harg : i.arg = 0) (hbits : i.operandBits = 0) :
    decode w = .ok i ↔ w &&& i.tableMask = i.tableMatch := by
  have hzero : (0 : Word) = (w.setWidth 0).setWidth 32 := by simp [BitVec.eq_nil (w.setWidth 0)]
  rw [decode_eq_ok_iff_table, harg, hbits, ← hzero, and_iff_left rfl]

/-- The operand field of a row of format W is `arg`. -/
theorem decode_formatW_iff (w : PortWord) (i : Instr) (hbits : i.operandBits = 32) :
    decode w = .ok i ↔ w &&& i.tableMask = i.tableMatch ∧ i.arg = w.setWidth 32 := by
  rw [decode_eq_ok_iff_table, hbits, BitVec.setWidth_eq]

/-! ### Illegal words (R77) -/

theorem decode_of_fields {w : PortWord} {i : Instr} (hop : opField w = i.op) (harg : argField w = i.arg)
    (hfit : (argField w).toNat < 2 ^ i.operandBits) : ∃ i, decode w = .ok i :=
  ⟨i, (decode_eq_ok_iff w i).mpr ⟨hop, harg, i.wf_iff.mpr (harg ▸ hfit)⟩⟩

end Sys2Proof

namespace Sys2Proof.Machine

/-- A word that decodes has a defined operation code and no reserved bit set. -/
theorem not_illegalWord_of_decode {w : PortWord} {i : Instr} (h : decode w = .ok i) : ¬ illegalWord w := by
  obtain ⟨hop, harg, hwf⟩ := (decode_eq_ok_iff w i).mp h
  have hfit : (argField w).toNat < 2 ^ i.operandBits := harg ▸ i.wf_iff.mp hwf
  cases i with
  | hclr | hfin | ginits | gnext | rdst =>
    have hreserved : w.extractLsb' 0 32 = 0 := harg
    simp [illegalWord, hop, Instr.op, hreserved]
  | hchr _ | ginit _ | xorw _ => simp [illegalWord, hop, Instr.op]
  | xorp1 _ =>
    have hreserved : w.extractLsb' 8 24 = 0 := (extract_above_eq_zero_iff w rfl).mpr hfit
    simp [illegalWord, hop, Instr.op, hreserved]
  | xorp2 _ =>
    have hreserved : w.extractLsb' 16 16 = 0 := (extract_above_eq_zero_iff w rfl).mpr hfit
    simp [illegalWord, hop, Instr.op, hreserved]
  | xorp3 _ =>
    have hreserved : w.extractLsb' 24 8 = 0 := (extract_above_eq_zero_iff w rfl).mpr hfit
    simp [illegalWord, hop, Instr.op, hreserved]

/-- A defined operation code whose reserved bits are 0 is a command: one case for each code. -/
theorem decode_of_not_illegalWord {w : PortWord} (h : ¬ illegalWord w) : ∃ i, decode w = .ok i := by
  simp only [illegalWord, not_or, not_and, not_not] at h
  obtain ⟨hdefined, hN, h1, h2, h3⟩ := h
  have hformatN : ∀ i : Instr, opField w = i.op → i.op ∈ ([0x01, 0x03, 0x11, 0x12, 0x30] : List (BitVec 8)) →
      i.arg = 0 → ∃ i, decode w = .ok i := by
    intro i hop hmem harg
    have hzero : argField w = 0 := hN (hop ▸ hmem)
    exact decode_of_fields hop (hzero.trans harg.symm) (hzero ▸ Nat.two_pow_pos _)
  simp only [List.mem_cons, List.not_mem_nil, or_false] at hdefined
  obtain hop | hop | hop | hop | hop | hop | hop | hop | hop | hop | hop := hdefined
  · exact hformatN .hclr hop (by decide) rfl
  · exact decode_of_fields (i := .hchr (argField w)) hop rfl (argField w).isLt
  · exact hformatN .hfin hop (by decide) rfl
  · exact decode_of_fields (i := .ginit (argField w)) hop rfl (argField w).isLt
  · exact hformatN .ginits hop (by decide) rfl
  · exact hformatN .gnext hop (by decide) rfl
  · exact decode_of_fields (i := .xorw (argField w)) hop rfl (argField w).isLt
  · exact decode_of_fields (i := .xorp1 (argField w)) hop rfl ((extract_above_eq_zero_iff w rfl).mp (h1 hop))
  · exact decode_of_fields (i := .xorp2 (argField w)) hop rfl ((extract_above_eq_zero_iff w rfl).mp (h2 hop))
  · exact decode_of_fields (i := .xorp3 (argField w)) hop rfl ((extract_above_eq_zero_iff w rfl).mp (h3 hop))
  · exact hformatN .rdst hop (by decide) rfl

/-- A word that does not decode is refused in every state. -/
theorem refusedIllegal_of_reject {w : PortWord} {r : DecodeReject} (h : decode w = .error r) : RefusedIllegal w := by
  intro s rest hs
  rw [step_cons hs, inputEffect_command_of_reject h]
  rfl

theorem refusedIllegal_of_illegalWord {w : PortWord} (h : illegalWord w) : RefusedIllegal w := by
  cases hd : decode w with
  | ok i => exact absurd h (not_illegalWord_of_decode hd)
  | error r => exact refusedIllegal_of_reject hd

/-! ### The obligations -/

/-- Settles O4: the encoder's two fields are read back, and a well-formed operand passes format P's check. -/
theorem decodeOfEncodeIsTheCommand : Obligations.DecodeOfEncodeIsTheCommand := fun _ => decode_encode

/-- Settles O5: decoding determines both fields of the word. -/
theorem encodeOfDecodeIsTheWord : Obligations.EncodeOfDecodeIsTheWord := fun _ _ => encode_of_decode

/-- Settles O2: each row is `decode_eq_ok_iff_table` for its command, by the row's format. -/
theorem decodeFollowsTheOpcodeMap : Obligations.DecodeFollowsTheOpcodeMap := fun w =>
  ⟨decode_formatN_iff w .hclr rfl rfl,
    fun c => decode_formatW_iff w (.hchr c) rfl,
    decode_formatN_iff w .hfin rfl rfl,
    fun seed => decode_formatW_iff w (.ginit seed) rfl,
    decode_formatN_iff w .ginits rfl rfl,
    decode_formatN_iff w .gnext rfl rfl,
    fun v => decode_formatW_iff w (.xorw v) rfl,
    fun v => decode_eq_ok_iff_table w (.xorp1 v),
    fun v => decode_eq_ok_iff_table w (.xorp2 v),
    fun v => decode_eq_ok_iff_table w (.xorp3 v),
    decode_formatN_iff w .rdst rfl rfl⟩

/-- Settles O3: a word decodes exactly when it is none of R77's three kinds, and a word that does not is refused. -/
theorem illegalWordsAreExactlyTheRefusedOnes : Obligations.IllegalWordsAreExactlyTheRefusedOnes :=
  fun _ => ⟨refusedIllegal_of_illegalWord, decode_of_not_illegalWord⟩

/-- Settles O1: the decoder evaluated on each word. -/
theorem specWordsDecodeToTheirCommands : Obligations.SpecWordsDecodeToTheirCommands :=
  ⟨rfl, rfl, rfl, rfl, rfl, rfl, rfl, rfl, rfl, rfl, rfl⟩

/-- Settles O55: the assembler evaluated on each line. -/
theorem scriptLinesAssemble : Obligations.ScriptLinesAssemble := by
  unfold Obligations.ScriptLinesAssemble
  decide

end Sys2Proof.Machine
end

section
/-! SUPPORT. The response word (spec/30_encoding.md R73) and the answer of every command word. -/

namespace Sys2Proof.Machine

/-! ### Every command word is answered, in R73's format -/

theorem effect_answers (i : Instr) (s : State) : ∃ r, (effect i s).rsp = some r ∧ r.wf := by
  cases i using consumer_cases with
  | hclr | hchr _ | ginit _ | ginits => exact ⟨.done, rfl, done_wf⟩
  | hfin | rdst => exact ⟨.value _, rfl, value_wf _⟩
  | consumer i hi =>
    obtain hv | hv := s.genValid.eq_false_or_eq_true
    · exact ⟨streamAnswer i (nextWord s), by simp [effect_of_consumes_valid hi hv], streamAnswer_wf i _⟩
    · exact ⟨.refusal .uninit, by simp [effect_of_consumes_uninit hi hv], refusal_wf _⟩

theorem command_answers (w : PortWord) (s : State) : ∃ r, (inputEffect (.command w) s).rsp = some r ∧ r.wf := by
  cases hd : decode w with
  | ok i => rw [inputEffect_command_of_decode hd]; exact effect_answers i s
  | error r => rw [inputEffect_command_of_reject hd]; exact ⟨_, rfl, refusal_wf .illegal⟩

/-! ### The fields of the response word -/

theorem response_word_status (r : Response) : r.word.extractLsb' 36 4 = r.st.code := by
  rw [Response.word, BitVec.extractLsb'_append_eq_of_le (by decide)]
  exact BitVec.extractLsb'_append_eq_left

theorem response_word_count (r : Response) : (r.word.extractLsb' 32 4).toNat = r.n.val := by
  have hfield : r.word.extractLsb' 32 4 = BitVec.ofNat 4 r.n.val := by
    rw [Response.word, BitVec.extractLsb'_append_eq_of_le (by decide)]
    exact BitVec.extractLsb'_append_eq_right
  rw [hfield, BitVec.toNat_ofNat, Nat.mod_eq_of_lt (r.n.isLt.trans (by decide))]

theorem response_word_data (r : Response) : r.word.extractLsb' 0 32 = r.data :=
  BitVec.extractLsb'_append_eq_right

/-! ### What a well-formed response holds -/

theorem Response.wf.data_of_refusal {r : Response} (h : r.wf) (hst : r.st ≠ .ok) : r.n = 0 ∧ r.data = 0 := by
  obtain ⟨hn, hdata⟩ := h
  rw [hn hst] at hdata
  exact ⟨hn hst, BitVec.eq_of_toNat_eq (Nat.lt_one_iff.mp hdata)⟩

/-- A value below `2^(8n)` has only zero bytes from byte `n` on. -/
theorem Response.wf.byte_eq_zero {r : Response} (h : r.wf) {i : Nat} (hi : r.n.val ≤ i) :
    r.data.extractLsb' (8 * i) 8 = 0 := by
  obtain ⟨-, hdata⟩ := h
  have hlt : r.data.toNat < 2 ^ (8 * i) := hdata.trans_le (Nat.pow_le_pow_right (by decide) (by omega))
  apply BitVec.eq_of_toNat_eq
  rw [BitVec.extractLsb'_toNat, Nat.shiftRight_eq_div_pow, Nat.div_eq_of_lt hlt]
  rfl

/-- Settles O9: the fields of the word, and `Response.wf` of every answer. -/
theorem responseWordsHaveTheirFormat : Obligations.ResponseWordsHaveTheirFormat := by
  refine ⟨fun r => ⟨?_, response_word_count r, response_word_data r⟩, ?_⟩
  · rw [response_word_status]
    cases r.st <;> rfl
  · intro s w rest t r hs hstep hr
    rw [step_cons hs, Host.Outcome.next.injEq] at hstep
    subst hstep
    obtain ⟨r', hr', hwf⟩ := command_answers w { s with inputs := rest }
    obtain rfl : r' = r := Option.some.inj (hr'.symm.trans hr)
    exact ⟨hwf.data_of_refusal, fun _ hi _ => hwf.byte_eq_zero hi⟩

end Sys2Proof.Machine
end

section
/-! SUPPORT. The block at its ports (spec/30_encoding.md R70, R71): what one clock edge without `rst` does in each
phase, and the transactions a run of edges does. -/

namespace Sys2Proof.Machine

section
variable {i : PinsIn} {p : PortState}

/-! ### One clock edge without `rst`, phase by phase -/

theorem clockEdge_accept (hrst : i.rst = false) (hp : p.phase = .idle) (hv : i.cmdValid = true) :
    clockEdge i p = .next { p with phase := .busy i.cmd (Config.latency i.cmd p), ticks := p.ticks + 1 } := by
  simp [clockEdge, hrst, hp, hv]

theorem clockEdge_wait (hrst : i.rst = false) (hp : p.phase = .idle) (hv : i.cmdValid = false) :
    clockEdge i p = .next { p with ticks := p.ticks + 1 } := by
  simp [clockEdge, hrst, hp, hv]

theorem clockEdge_count {w : PortWord} {n : Nat} (hrst : i.rst = false) (hp : p.phase = .busy w (n + 1)) :
    clockEdge i p = .next { p with phase := .busy w n, ticks := p.ticks + 1 } := by
  simp [clockEdge, hrst, hp]

theorem clockEdge_execute {w : PortWord} (hrst : i.rst = false) (hp : p.phase = .busy w 0) :
    clockEdge i p = .next ⟨inputEffect (.command w) p.core, .responding, p.ticks + 1⟩ := by
  have hrun : runCommand w p.core = .next (inputEffect (.command w) p.core) := runInput_eq (.command w) p.core
  simp [clockEdge, hrst, hp, hrun, executed]

theorem clockEdge_hold (hrst : i.rst = false) (hp : p.phase = .responding) (hr : i.rspReady = false) :
    clockEdge i p = .next { p with ticks := p.ticks + 1 } := by
  simp [clockEdge, hrst, hp, hr]

theorem clockEdge_deliver (hrst : i.rst = false) (hp : p.phase = .responding) (hr : i.rspReady = true) :
    clockEdge i p = .next { p with phase := .idle, ticks := p.ticks + 1 } := by
  simp [clockEdge, hrst, hp, hr]

/-! ### What the outputs show, and what the edge transfers -/

theorem pinsOut_cmdReady_iff : (pinsOut i p).cmdReady = true ↔ i.rst = false ∧ p.phase = .idle := by
  simp [pinsOut]

theorem pinsOut_rspValid_iff : (pinsOut i p).rspValid = true ↔ i.rst = false ∧ p.phase = .responding := by
  simp [pinsOut]

theorem pinsOut_rsp {r : Response} (hrst : i.rst = false) (hp : p.phase = .responding) (hr : p.core.rsp = some r) :
    (pinsOut i p).rsp = r.word := by
  simp [pinsOut, hrst, hp, hr]

theorem acceptedAt_of_not_idle (hp : p.phase ≠ .idle) : acceptedAt i p = [] := by
  simp [acceptedAt, pinsOut, hp]

theorem acceptedAt_of_idle (hrst : i.rst = false) (hp : p.phase = .idle) :
    acceptedAt i p = if i.cmdValid then [i.cmd] else [] := by
  simp [acceptedAt, pinsOut, hrst, hp]

theorem deliveredAt_of_not_responding (hp : p.phase ≠ .responding) : deliveredAt i p = [] := by
  simp [deliveredAt, pinsOut, hp]

theorem deliveredAt_of_responding {r : Response} (hrst : i.rst = false) (hp : p.phase = .responding)
    (hr : p.core.rsp = some r) : deliveredAt i p = if i.rspReady then [r.word] else [] := by
  simp [deliveredAt, pinsOut, hrst, hp, hr]

end

/-! ### The transactions of a run -/

/-- After the words accepted and the responses delivered so far, the block at `p` has done the transactions of a
session from `s`: all of them and delivered every answer, all but the word in flight, or all with the last answer still
to be taken. -/
inductive InOrder (s : State) : List PortWord → List PortWord → PortState → Prop
  | idle {words : List PortWord} {core : State} {rs : List Response} (ticks : Nat)
      (hrun : session (words.map .command) s = some (core, rs)) :
      InOrder s words (rs.map Response.word) ⟨core, .idle, ticks⟩
  | busy {words : List PortWord} {core : State} {rs : List Response} (w : PortWord) (left ticks : Nat)
      (hrun : session (words.map .command) s = some (core, rs)) :
      InOrder s (words ++ [w]) (rs.map Response.word) ⟨core, .busy w left, ticks⟩
  | responding {words : List PortWord} {core : State} {rs : List Response} {r : Response} (ticks : Nat)
      (hrun : session (words.map .command) s = some (core, rs ++ [r])) (hrsp : core.rsp = some r) :
      InOrder s words (rs.map Response.word) ⟨core, .responding, ticks⟩

/-- One more command word at the end of a session: one more answer. -/
theorem session_append_command {s t : State} {words : List PortWord} {rs : List Response} {w : PortWord} {r : Response}
    (hrun : session (words.map .command) s = some (t, rs)) (hr : (inputEffect (.command w) t).rsp = some r) :
    session ((words ++ [w]).map .command) s = some (inputEffect (.command w) t, rs ++ [r]) := by
  rw [List.map_append]
  refine session_append _ _ _ _ _ _ _ hrun ?_
  rw [List.map_singleton, session_cons, hr]
  rfl

/-- One clock edge without `rst` keeps the transactions in order. -/
theorem clockEdge_keeps_inOrder {s : State} {words dels : List PortWord} {p : PortState} (h : InOrder s words dels p)
    {i : PinsIn} (hrst : i.rst = false) :
    ∃ q, clockEdge i p = .next q ∧ InOrder s (words ++ acceptedAt i p) (dels ++ deliveredAt i p) q := by
  cases h with
  | idle ticks hrun =>
    rw [acceptedAt_of_idle hrst rfl, deliveredAt_of_not_responding (by simp), List.append_nil]
    cases hv : i.cmdValid with
    | true => exact ⟨_, clockEdge_accept hrst rfl hv, .busy i.cmd _ _ hrun⟩
    | false => exact ⟨_, clockEdge_wait hrst rfl hv, by simpa using .idle _ hrun⟩
  | busy w left ticks hrun =>
    rw [acceptedAt_of_not_idle (by simp), deliveredAt_of_not_responding (by simp), List.append_nil, List.append_nil]
    cases left with
    | succ n => exact ⟨_, clockEdge_count hrst rfl, .busy w n _ hrun⟩
    | zero =>
      obtain ⟨r, hr, -⟩ := command_answers w _
      exact ⟨_, clockEdge_execute hrst rfl, .responding _ (session_append_command hrun hr) hr⟩
  | responding ticks hrun hrsp =>
    rw [acceptedAt_of_not_idle (by simp), deliveredAt_of_responding hrst rfl hrsp, List.append_nil]
    cases hr : i.rspReady with
    | true => exact ⟨_, clockEdge_deliver hrst rfl hr, by simpa using InOrder.idle (ticks + 1) hrun⟩
    | false => exact ⟨_, clockEdge_hold hrst rfl hr, by simpa using .responding _ hrun hrsp⟩

/-- So does a run of them. -/
theorem clockRun_keeps_inOrder {s : State} {words dels : List PortWord} {p : PortState} (h : InOrder s words dels p)
    (is : List PinsIn) (hrst : ∀ i ∈ is, i.rst = false) :
    ∃ tr, clockRun is p = some tr ∧ InOrder s (words ++ tr.accepted) (dels ++ tr.delivered) tr.last := by
  induction is generalizing words dels p with
  | nil => exact ⟨⟨p, [], []⟩, rfl, by simpa using h⟩
  | cons i is ih =>
    obtain ⟨q, hedge, hq⟩ := clockEdge_keeps_inOrder h (hrst i List.mem_cons_self)
    obtain ⟨tr, hrun, htr⟩ := ih hq fun j hj => hrst j (List.mem_cons_of_mem i hj)
    refine ⟨_, by rw [clockRun, hedge]; simp only [hrun]; rfl, ?_⟩
    simpa only [List.append_assoc] using htr

/-- Settles O53: `InOrder` holds of an idle block with nothing accepted, and the run keeps it. -/
theorem portsDoTheTransactionsInOrder : Obligations.PortsDoTheTransactionsInOrder := by
  intro is p hidle hrst
  obtain ⟨core, phase, ticks⟩ := p
  obtain rfl : phase = .idle := hidle
  have hstart : InOrder core [] [] ⟨core, .idle, ticks⟩ := .idle (words := []) (rs := []) ticks rfl
  obtain ⟨⟨last, accepted, delivered⟩, hrun, htr⟩ := clockRun_keeps_inOrder hstart is hrst
  simp only [List.nil_append] at htr
  cases htr with
  | idle _ hses => exact ⟨_, _, hrun, hses, rfl⟩
  | busy w _ _ hses => exact ⟨_, _, hrun, _, rfl, hses, rfl⟩
  | responding _ hses hrsp => exact ⟨_, _, hrun, _, hses, hrsp, List.map_append⟩

/-- Settles O51: each clause is one phase's clock edge. -/
theorem portHandshakeHoldsUntilDelivery : Obligations.PortHandshakeHoldsUntilDelivery := by
  intro p i
  refine ⟨pinsOut_cmdReady_iff, pinsOut_rspValid_iff, fun hrst hp hr => ?_, fun hrst hp hr => ?_, fun hrst hp hv => ?_,
    fun hrst hp hv => ?_⟩
  · exact ⟨_, clockEdge_hold hrst hp hr, hp, rfl, fun j r hj hrsp => ⟨pinsOut_rsp hrst hp hrsp, pinsOut_rsp hj hp hrsp⟩⟩
  · exact ⟨_, clockEdge_deliver hrst hp hr, rfl, rfl⟩
  · exact ⟨_, _, clockEdge_accept hrst hp hv, rfl, rfl⟩
  · exact ⟨_, clockEdge_wait hrst hp hv, hp, rfl⟩

end Sys2Proof.Machine
end

section
/-! SUPPORT. The reference functions of the hash (spec/40_hash.md R100 to R103): component, stem and derive_seed. -/

namespace Sys2Proof.Machine

/-! ### The component (R100) -/

/-- A separator starts a new component; any other code point extends the one before it. -/
theorem component_append_singleton (sep : Nat → Bool) (s : List Nat) (c : Nat) :
    component sep (s ++ [c]) = if sep c then [] else component sep s ++ [c] := by
  cases h : sep c <;> simp [component, h]

theorem component_of_no_sep {sep : Nat → Bool} {s : List Nat} (h : ∀ c ∈ s, sep c = false) : component sep s = s := by
  induction s using List.reverseRecOn with
  | nil => rfl
  | append_singleton s c ih =>
    have hs : component sep s = s := ih fun a ha => h a (List.mem_append_left _ ha)
    simp [component_append_singleton, hs, h c (by simp)]

theorem component_after_sep {sep : Nat → Bool} (a : List Nat) {p : Nat} {b : List Nat} (hp : sep p = true)
    (hb : ∀ c ∈ b, sep c = false) : component sep (a ++ p :: b) = b := by
  induction b using List.reverseRecOn with
  | nil => simp [component_append_singleton, hp]
  | append_singleton b c ih =>
    have hab : component sep (a ++ p :: b) = b := ih fun x hx => hb x (List.mem_append_left _ hx)
    rw [← List.cons_append, ← List.append_assoc, component_append_singleton, hab, hb c (by simp)]
    rfl

/-! ### The stem (R101) -/

/-- The stem is what stands before the first dot, unless nothing does. -/
theorem stem_eq (t : List Nat) : stem t = if beforeDot t = [] then t else beforeDot t := by
  by_cases h : 0x2E ∈ t
  · exact if_pos h
  · rw [beforeDot_of_not_mem h, ite_self]
    exact if_neg h

theorem stem_of_no_dot {t : List Nat} (h : 0x2E ∉ t) : stem t = t := by
  rw [stem_eq, beforeDot_of_not_mem h, ite_self]

theorem stem_before_dot {u : List Nat} (h : 0x2E ∉ u) (hu : u ≠ []) (v : List Nat) : stem (u ++ 0x2E :: v) = u := by
  have hbefore : beforeDot (u ++ 0x2E :: v) = u := by
    rw [beforeDot_append_of_not_mem h]
    exact List.append_nil u
  rw [stem_eq, hbefore, if_neg hu]

theorem stem_of_leading_dot (v : List Nat) : stem (0x2E :: v) = 0x2E :: v := by
  have hbefore : beforeDot (0x2E :: v) = [] := rfl
  rw [stem_eq, if_pos hbefore]

/-! ### The obligations -/

/-- Settles O15: the clauses are the lemmas above, and the fold's is its definition over an appended code point. -/
theorem referenceHashFollowsItsRules : Obligations.ReferenceHashFollowsItsRules :=
  ⟨fun _ _ => component_of_no_sep, fun _ a _ _ => component_after_sep a, fun _ => stem_of_no_dot,
    fun _ v h hu => stem_before_dot h hu v, stem_of_leading_dot, fun _ => ⟨rfl, rfl⟩, rfl,
    fold_append_singleton, fun _ _ => rfl⟩

/-- Settles O16: both names are their own component, and both have the stem `u`. -/
theorem seedIgnoresWhatFollowsTheFirstDot : Obligations.SeedIgnoresWhatFollowsTheFirstDot := by
  intro sep u v hdotsep hsep hdot hu
  have hname : ∀ c ∈ u ++ 0x2E :: v, sep c = false := by
    intro c hc
    obtain hc | rfl | hc := by simpa using hc
    · exact hsep c (List.mem_append_left v hc)
    · exact hdotsep
    · exact hsep c (List.mem_append_right u hc)
  have hself : ∀ c ∈ u, sep c = false := fun c hc => hsep c (List.mem_append_left v hc)
  rw [deriveSeed, deriveSeed, component_of_no_sep hname, component_of_no_sep hself, stem_before_dot hdot hu,
    stem_of_no_dot hdot]

end Sys2Proof.Machine
end

section
/-! SUPPORT. The hash unit's commands one by one (spec/40_hash.md R104 to R106). -/

namespace Sys2Proof.Machine

/-- A word of format N with a reserved bit set is refused (R77 (b)). -/
theorem refusedIllegal_formatN {op : BitVec 8} {arg : Word}
    (hop : op ∈ ([0x01, 0x03, 0x11, 0x12, 0x30] : List (BitVec 8))) (harg : arg ≠ 0) : RefusedIllegal (op ++ arg) := by
  refine refusedIllegal_of_illegalWord (.inr (.inl ⟨?_, ?_⟩))
  · rwa [opField_append]
  · exact fun h => harg ((argField_append op arg).symm.trans h)

theorem finalSeed_of_nz {s : State} (h : s.nz = true) : finalSeed s = s.accStem := by simp [finalSeed, h]

theorem finalSeed_of_not_nz {s : State} (h : s.nz = false) : finalSeed s = s.accFull := by simp [finalSeed, h]

/-- Settles O12: the word decodes, a reserved bit refuses it, and the effect is HCLR's definition. -/
theorem hclrClearsTheHashUnit : Obligations.HclrClearsTheHashUnit :=
  ⟨runsAs_of_decode rfl, fun _ => refusedIllegal_formatN (by decide), fun _ => rfl⟩

/-- Settles O13: one equation of `hashChar` for each clause of R105. -/
theorem hchrHashesOneCharacter : Obligations.HchrHashesOneCharacter := by
  refine ⟨fun c => runsAs_of_decode (decode_encode (i := .hchr c) rfl), isSep_dot, fun s c => ?_⟩
  rw [exec_eq_effect, effect]
  refine ⟨fun hsep => ?_, fun hsep hdot => ?_, fun hdot hc => ?_, fun hsep hdot hc => ?_⟩
  · rw [hashChar_of_isSep hsep]; rfl
  · rw [hashChar_after_dot hsep hdot]; rfl
  · rw [hashChar_first_dot (hc ▸ isSep_dot s) hdot hc]; rfl
  · rw [hashChar_in_stem hsep hdot hc]; rfl

/-- Settles O14: as O12, with the finalised value by `NZ`. -/
theorem hfinFinalisesTheSeed : Obligations.HfinFinalisesTheSeed := by
  refine ⟨runsAs_of_decode rfl, fun _ => refusedIllegal_formatN (by decide), fun s => ?_⟩
  rw [exec_eq_effect, effect]
  refine ⟨fun hnz => ?_, fun hnz => ?_⟩
  · rw [finalSeed_of_nz hnz]; rfl
  · rw [finalSeed_of_not_nz hnz]; rfl

end Sys2Proof.Machine
end

section
/-! SUPPORT. The pseudo-command HASH (spec/30_encoding.md R81) computes derive_seed (spec/40_hash.md R107). -/

namespace Sys2Proof.Machine

/-! ### Sessions over command lists -/

theorem commands_append (is js : List Instr) : commands (is ++ js) = commands is ++ commands js :=
  List.map_append

/-- A well-formed command, then the rest: its effect, and its answer ahead of theirs. -/
theorem session_commands_cons {i : Instr} (hi : i.wf = true) {is : List Instr} {s t : State} {r : Response}
    {rs : List Response} (hr : (effect i s).rsp = some r) (hrun : session (commands is) (effect i s) = some (t, rs)) :
    session (commands (i :: is)) s = some (t, r :: rs) := by
  have heffect : inputEffect (.command (encode i)) s = effect i s := inputEffect_command_of_decode (decode_encode hi) s
  rw [commands, List.map_cons, session_cons, heffect, hr, ← commands, hrun]
  rfl

/-! ### The code points of a name, one HCHR after another -/

/-- The state after the HCHRs of a name. -/
def afterChars (name : List Word) (s : State) : State := name.foldl (fun t c => effect (.hchr c) t) s

@[simp] theorem afterChars_nil (s : State) : afterChars [] s = s := rfl

@[simp] theorem afterChars_cons (c : Word) (name : List Word) (s : State) :
    afterChars (c :: name) s = afterChars name (effect (.hchr c) s) := rfl

theorem afterChars_append_singleton (name : List Word) (c : Word) (s : State) :
    afterChars (name ++ [c]) s = effect (.hchr c) (afterChars name s) := by
  simp [afterChars]

theorem session_chars (name : List Word) (s : State) :
    session (commands (name.map .hchr)) s = some (afterChars name s, List.replicate name.length .done) := by
  induction name generalizing s with
  | nil => rfl
  | cons c name ih => exact session_commands_cons rfl rfl (ih _)

/-- The generator's registers and ERRS are the same, and so is the parameter SEP. -/
def SameButHashAndSeed (s t : State) : Prop :=
  t.mt = s.mt ∧ t.cursor = s.cursor ∧ t.genValid = s.genValid ∧ t.errs = s.errs ∧ t.sep = s.sep

theorem afterChars_frame (name : List Word) (s : State) : SameButHashAndSeed s (afterChars name s) := by
  induction name generalizing s with
  | nil => exact ⟨rfl, rfl, rfl, rfl, rfl⟩
  | cons c name ih => simpa [SameButHashAndSeed, effect] using ih (effect (.hchr c) s)

theorem sepNat_toNat (s : State) (c : Word) : s.sepNat c.toNat = s.isSep c := by
  simp [State.sepNat]

theorem isSep_congr {s t : State} (h : t.sep = s.sep) (c : Word) : t.isSep c = s.isSep c := by
  simp [State.isSep, h]

/-- From a cleared unit, the HCHRs of a name leave the accumulators and flags of its component. -/
theorem afterChars_holds_component {s : State} (h : HashUnitHolds [] s) (name : List Word) :
    ∃ u, codePoints u = component s.sepNat (codePoints name) ∧ HashUnitHolds u (afterChars name s) := by
  induction name using List.reverseRecOn with
  | nil => exact ⟨[], rfl, h⟩
  | append_singleton name c ih =>
    obtain ⟨u, hu, hholds⟩ := ih
    obtain ⟨-, -, -, -, hsepEq⟩ := afterChars_frame name s
    have hcomp : component s.sepNat (codePoints (name ++ [c])) =
        if s.isSep c then [] else codePoints (u ++ [c]) := by
      rw [codePoints_append, codePoints_append, hu, ← sepNat_toNat]
      exact component_append_singleton _ _ _
    rw [hcomp, afterChars_append_singleton]
    cases hsep : s.isSep c with
    | true =>
      refine ⟨[], rfl, ?_⟩
      rw [effect, hashChar_of_isSep ((isSep_congr hsepEq c).trans hsep)]
      exact hashUnitHolds_of_cleared rfl rfl rfl rfl
    | false =>
      exact ⟨u ++ [c], rfl,
        (hholds.append_char ((isSep_congr hsepEq c).trans hsep)).of_sameHashUnit ⟨rfl, rfl, rfl, rfl⟩⟩

/-! ### HFIN -/

/-- What HFIN finalises is the fold of the stem of the code points the unit holds: NZ tells the two cases of R101. -/
theorem HashUnitHolds.finalSeed_toNat {u : List Word} {s : State} (h : HashUnitHolds u s) :
    (finalSeed s).toNat = fold (stem (codePoints u)) := by
  rw [stem_eq]
  cases hnz : s.nz with
  | true =>
    have hne : beforeDot (codePoints u) ≠ [] := of_decide_eq_true (h.nz.symm.trans hnz)
    rw [finalSeed_of_nz hnz, h.accStem, if_neg hne]
  | false =>
    have hnil : beforeDot (codePoints u) = [] := not_not.mp (of_decide_eq_false (h.nz.symm.trans hnz))
    rw [finalSeed_of_not_nz hnz, h.accFull, if_pos hnil]

/-- R107 from a cleared unit, with everything that HFIN and the HCHRs leave alone. -/
theorem session_hash_of_cleared {s : State} (h : HashUnitHolds [] s) (name : List Word) :
    ∃ t, session (commands (name.map .hchr ++ [.hfin])) s =
        some (t, List.replicate name.length .done ++ [.value t.seed]) ∧
      t.seed.toNat = deriveSeed s.sepNat (codePoints name) ∧ SameButHashAndSeed s t := by
  obtain ⟨u, hu, hholds⟩ := afterChars_holds_component h name
  refine ⟨effect .hfin (afterChars name s), ?_, ?_, afterChars_frame name s⟩
  · rw [commands_append]
    exact session_append _ _ _ _ _ _ _ (session_chars name s) (session_commands_cons rfl rfl rfl)
  · rw [deriveSeed, ← hu]
    exact hholds.finalSeed_toNat

/-- Settles O18: HCLR clears the unit, and from there the name's component is hashed and finalised. -/
theorem hashComputesDeriveSeed : Obligations.HashComputesDeriveSeed := by
  intro s name
  refine ⟨?_, fun hstem hfull hdot hnz => ?_⟩
  · have hcleared : HashUnitHolds [] (effect .hclr s) := hashUnitHolds_of_cleared rfl rfl rfl rfl
    obtain ⟨t, hrun, hseed, hmt, hcursor, hvalid, herrs, -⟩ := session_hash_of_cleared hcleared name
    exact ⟨t, _, session_commands_cons rfl rfl hrun, hseed, rfl, hmt, hcursor, hvalid, herrs⟩
  · obtain ⟨t, hrun, hseed, -⟩ := session_hash_of_cleared (hashUnitHolds_of_cleared hstem hfull hdot hnz) name
    exact ⟨t, _, hrun, hseed, rfl⟩

end Sys2Proof.Machine
end

section
/-! SUPPORT. INIT, TWIST and NEXT word by word (spec/41_generator.md R120, R121, R123). -/

namespace Sys2Proof.Machine

/-! ### INIT -/

/-- Settles O19: the array is known word by word, and step 2i+1 of the recurrence is one step after step 2i. -/
theorem initFillsTheArray : Obligations.InitFillsTheArray := by
  refine fun seed s => ⟨rfl, fun i hi => ?_⟩
  rw [initGen_mt, mtRead_initArray seed hi, Function.iterate_succ_apply']
  rfl

/-- Settles O28: the words' recurrence evaluated for at most three steps. -/
theorem seedsZeroAndAllOnesGiveTheirFirstWords : Obligations.SeedsZeroAndAllOnesGiveTheirFirstWords := by
  refine ⟨?_, ?_, ?_⟩ <;> (rw [mtRead_initArray _ (by decide)]; rfl)

/-! ### TWIST -/

/-- The array is read with its index reduced mod 624 (log 7). -/
theorem mtRead_add_stateWords (mt : Vector Word Config.stateWords) (i : Nat) : mtRead mt (i + 624) = mtRead mt i := by
  simp [mtRead]

/-- An iteration writes the twist formula of the three words it reads. -/
theorem twistWord_eq_twistFormula (mt : Vector Word Config.stateWords) (i : Nat) :
    twistWord mt i = twistFormula (mtRead mt i) (mtRead mt (i + 1)) (mtRead mt (i + 397)) := rfl

/-- The word that iteration `j` wrote is the twisted array's, for all later iterations to read. -/
theorem twistBelow_eq_twistArray (mt : Vector Word Config.stateWords) {k j : Nat} (hj : j < k) (hk : k ≤ 624) :
    mtRead (twistBelow mt k) j = mtRead (twistArray mt) j := by
  rw [twistArray_eq_twistBelow, twistBelow_settled mt hj hk, twistBelow_settled mt (by omega) le_rfl]

/-- The lower word that iteration `i` reads: old, but for the last iteration, which reads the rewritten word 0. -/
theorem twistBelow_lower (mt : Vector Word Config.stateWords) {i : Nat} (hi : i < 624) :
    mtRead (twistBelow mt i) (i + 1) = if i = 623 then mtRead (twistArray mt) 0 else mtRead mt (i + 1) := by
  split
  case isTrue hlast =>
    subst hlast
    rw [show 623 + 1 = 0 + 624 from rfl, mtRead_add_stateWords, twistBelow_eq_twistArray mt (by omega) (by omega)]
  case isFalse hmid => exact twistBelow_untouched mt (by omega) (by omega)

/-- The mixed word that iteration `i` reads: old below 227, rewritten from there on. -/
theorem twistBelow_mixed (mt : Vector Word Config.stateWords) {i : Nat} (hi : i < 624) :
    mtRead (twistBelow mt i) (i + 397) =
      if i < 227 then mtRead mt (i + 397) else mtRead (twistArray mt) (i - 227) := by
  split
  case isTrue hlow => exact twistBelow_untouched mt (by omega) (by omega)
  case isFalse hhigh =>
    rw [show i + 397 = i - 227 + 624 by omega, mtRead_add_stateWords,
      twistBelow_eq_twistArray mt (by omega) (by omega)]

/-- Settles O20: iteration `i` settles word `i`, and the three words it reads are old or rewritten as R121 says. -/
theorem twistRewritesTheArrayInPlace : Obligations.TwistRewritesTheArrayInPlace := by
  refine fun s => ⟨rfl, fun i hi => ?_⟩
  rw [twist_mt, ← twistBelow_lower s.mt hi, ← twistBelow_mixed s.mt hi, ← twistBelow_untouched s.mt le_rfl hi,
    ← twistWord_eq_twistFormula, twistArray_eq_twistBelow, twistBelow_settled s.mt hi le_rfl]

/-! ### NEXT -/

theorem twistIfExhausted_of_lt {s : State} (h : s.cursor.toNat < 624) : twistIfExhausted s = s :=
  if_neg (Nat.not_le.mpr h)

theorem twistIfExhausted_of_le {s : State} (h : 624 ≤ s.cursor.toNat) : twistIfExhausted s = twist s := if_pos h

/-- Settles O22: NEXT's two cases, below the end of the array and at it. -/
theorem nextReadsAtTheCursor : Obligations.NextReadsAtTheCursor := fun _ =>
  ⟨fun hlt => ⟨nextWord_of_lt hlt, afterNext_of_lt hlt⟩, fun hle => ⟨nextWord_of_le hle, afterNext_of_le hle⟩⟩

end Sys2Proof.Machine
end

section
/-! SUPPORT. TEMPER (spec/41_generator.md R122): its four lines, each of them a bijection. -/

namespace Sys2Proof.Machine

/-- XOR of a word with a function of it can be undone bit by bit, when bit `i` of the function needs only bits of
smaller rank. -/
theorem xor_injective_of_rank (rank : Nat → Nat) (g : Word → Word)
    (hg : ∀ x y i, (∀ j, rank j < rank i → x.getLsbD j = y.getLsbD j) → (g x).getLsbD i = (g y).getLsbD i) :
    Function.Injective fun y => y ^^^ g y := by
  intro x y hxy
  have hbit : ∀ n i, rank i = n → x.getLsbD i = y.getLsbD i := by
    intro n
    induction n using Nat.strong_induction_on with
    | _ n ih =>
      rintro i rfl
      have hline : (x ^^^ g x).getLsbD i = (y ^^^ g y).getLsbD i := congrArg (·.getLsbD i) hxy
      rwa [BitVec.getLsbD_xor, BitVec.getLsbD_xor, hg x y i fun j hj => ih _ hj j rfl, Bool.xor_left_inj] at hline
  exact BitVec.eq_of_getLsbD_eq fun i _ => hbit _ i rfl

/-- A line that shifts right needs the higher bits first. -/
theorem xor_shiftRight_injective {k : Nat} (hk : 0 < k) : Function.Injective fun y : Word => y ^^^ (y >>> k) := by
  refine xor_injective_of_rank (fun i => 32 - i) _ fun x y i h => ?_
  rw [BitVec.getLsbD_ushiftRight, BitVec.getLsbD_ushiftRight]
  by_cases hi : i < 32
  · exact h _ (by omega)
  · rw [BitVec.getLsbD_of_ge x _ (by omega), BitVec.getLsbD_of_ge y _ (by omega)]

/-- A line that shifts left and masks needs the lower bits first. -/
theorem xor_shiftLeft_injective {k : Nat} (hk : 0 < k) (mask : Word) :
    Function.Injective fun y : Word => y ^^^ ((y <<< k) &&& mask) := by
  refine xor_injective_of_rank id _ fun x y i h => ?_
  rw [BitVec.getLsbD_and, BitVec.getLsbD_and, BitVec.getLsbD_shiftLeft, BitVec.getLsbD_shiftLeft]
  by_cases hi : i < k
  · simp [hi]
  · rw [h (i - k) (by simp only [id]; omega)]

theorem temper_bijective : Function.Bijective temper := by
  rw [← Finite.injective_iff_bijective]
  exact (xor_shiftRight_injective (k := 18) (by decide)).comp
    ((xor_shiftLeft_injective (k := 15) (by decide) _).comp
      ((xor_shiftLeft_injective (k := 7) (by decide) _).comp (xor_shiftRight_injective (k := 11) (by decide))))

/-- Settles O21: the lines are the definition's, the four values are evaluated, and TEMPER composes four bijections. -/
theorem temperMixesByItsFourLines : Obligations.TemperMixesByItsFourLines := by
  refine ⟨?_, rfl, rfl, rfl, rfl, temper_bijective⟩
  rintro y _ _ _ rfl rfl rfl
  rfl

end Sys2Proof.Machine
end

section
/-! SUPPORT. The generator's commands one by one (spec/41_generator.md R124 to R126). -/

namespace Sys2Proof.Machine

/-- R188, for every command that needs a keystream word. -/
theorem refusedUninit_of_consumes {i : Instr} (hi : i.consumes = true) : RefusedUninit i := by
  intro s hv
  rw [exec_eq_effect, effect_of_consumes_uninit hi hv]
  rfl

/-- Settles O23: the word decodes, and the effect is INIT with GEN_VALID set. -/
theorem ginitStartsTheGenerator : Obligations.GinitStartsTheGenerator :=
  ⟨fun seed => runsAs_of_decode (decode_encode (i := .ginit seed) rfl), fun _ _ => rfl⟩

/-- Settles O24: as O23, with the operand from SEED; a reserved bit refuses the word. -/
theorem ginitsStartsFromTheSeedRegister : Obligations.GinitsStartsFromTheSeedRegister :=
  ⟨runsAs_of_decode rfl, fun _ => refusedIllegal_formatN (by decide), fun _ => ⟨rfl, rfl⟩⟩

/-- Settles O25: GNEXT's effect by the two cases of GEN_VALID. -/
theorem gnextReadsOneKeystreamWord : Obligations.GnextReadsOneKeystreamWord := by
  refine ⟨runsAs_of_decode rfl, fun _ => refusedIllegal_formatN (by decide), fun s hv => ?_,
    refusedUninit_of_consumes rfl⟩
  rw [exec_eq_effect, effect, withKeystream_valid hv]
  rfl

end Sys2Proof.Machine
end

section
/-! SUPPORT. The generator reads the keystream of its seed (spec/41_generator.md R130): where in the keystream it
stands is an invariant of the consuming commands. -/

namespace Sys2Proof.Machine

/-- The twisted arrays of the reference are the iterates of TWIST. -/
theorem twistedArray_eq_iterate (seed : Word) (k : Nat) : twistedArray seed k = twistArray^[k] (initArray seed) := by
  induction k with
  | zero => rfl
  | succ k ih => rw [Function.iterate_succ_apply', ← ih, twistedArray]

/-- The generator is valid and has read `j` words of the keystream of `seed`. The cursor is 624, not 0, at a multiple
of 624: the twist comes with the next word (90_conflicts.md C1). -/
structure StreamAt (seed : Word) (j : Nat) (s : State) : Prop where
  valid : s.genValid = true
  mt : s.mt = twistedArray seed ((j + 623) / 624)
  cursor : s.cursor.toNat = (j + 623) % 624 + 1

theorem startGen_streamAt (seed : Word) (s : State) : StreamAt seed 0 (startGen seed s) := ⟨rfl, rfl, rfl⟩

/-- NEXT reads word `j mod 624` of the array after `floor(j/624) + 1` twists: the twist comes at the multiples of
624. -/
theorem StreamAt.array_of_next {seed : Word} {j : Nat} {s : State} (h : StreamAt seed j s) :
    (twistIfExhausted s).mt = twistedArray seed (j / 624 + 1) ∧ (twistIfExhausted s).cursor.toNat = j % 624 := by
  have hcursor := h.cursor
  rcases Nat.lt_or_ge s.cursor.toNat 624 with hlt | hle
  · rw [twistIfExhausted_of_lt hlt, h.mt, hcursor, show (j + 623) / 624 = j / 624 + 1 by omega]
    exact ⟨rfl, by omega⟩
  · rw [twistIfExhausted_of_le hle, twist_mt, h.mt, show (j + 623) / 624 = j / 624 by omega]
    exact ⟨rfl, show 0 = j % 624 by omega⟩

theorem StreamAt.nextWord_eq {seed : Word} {j : Nat} {s : State} (h : StreamAt seed j s) :
    nextWord s = keystreamWord seed j := by
  obtain ⟨hmt, hcursor⟩ := h.array_of_next
  rw [nextWord, hmt, hcursor, keystreamWord]

theorem afterNext_streamAt {seed : Word} {j : Nat} {s : State} (h : StreamAt seed j s) :
    StreamAt seed (j + 1) (afterNext s) where
  valid := (afterNext_genValid s).trans h.valid
  mt := by
    rw [show j + 1 + 623 = j + 624 from rfl, Nat.add_div_right j (by decide)]
    exact h.array_of_next.1
  cursor := by
    have hcursor := h.cursor
    rw [afterNext_cursor_toNat]
    split <;> omega

/-- A consuming command answers with the next word of the keystream. -/
theorem effect_rsp_of_streamAt {seed : Word} {j : Nat} {s : State} (h : StreamAt seed j s) {i : Instr}
    (hi : i.consumes = true) : (effect i s).rsp = some (streamAnswer i (keystreamWord seed j)) := by
  rw [effect_of_consumes_valid hi h.valid, respond_rsp, h.nextWord_eq]

/-- A consuming command that does not end the stream leaves the generator one word further. -/
theorem effect_streamAt {seed : Word} {j : Nat} {s : State} (h : StreamAt seed j s) {i : Instr}
    (hi : i.consumes = true) (hend : endsStream i = false) : StreamAt seed (j + 1) (effect i s) := by
  rw [effect_of_consumes_valid hi h.valid, hend]
  exact ⟨rfl, (afterNext_streamAt h).mt, (afterNext_streamAt h).cursor⟩

/-- `n` GNEXTs are answered with the next `n` words. -/
theorem session_ksScript {seed : Word} (n : Nat) {j : Nat} {s : State} (h : StreamAt seed j s) :
    ∃ t, session (commands (ksScript n)) s =
        some (t, (List.range' j n).map fun k => .value (keystreamWord seed k)) ∧ StreamAt seed (j + n) t := by
  induction n generalizing j s with
  | zero => exact ⟨s, rfl, h⟩
  | succ n ih =>
    obtain ⟨t, hrun, ht⟩ := ih (effect_streamAt h (i := .gnext) rfl rfl)
    refine ⟨t, session_commands_cons rfl (effect_rsp_of_streamAt h rfl) hrun, ?_⟩
    rwa [Nat.add_right_comm] at ht

/-- Settles O26: GINIT puts the generator at word 0, and every GNEXT reads the word it stands at. -/
theorem gnextReadsTheKeystream : Obligations.GnextReadsTheKeystream := by
  intro s seed n
  refine ⟨?_, ?_⟩
  · exact List.map_congr_left fun j _ => by rw [keystreamWord, twistedArray_eq_iterate]
  · obtain ⟨t, hrun, ht⟩ := session_ksScript n (startGen_streamAt seed s)
    refine ⟨t, ?_, ht.valid⟩
    rw [keystream, List.map_map, List.range_eq_range']
    exact session_commands_cons rfl rfl hrun

end Sys2Proof.Machine
end

section
/-! SUPPORT. The generator's answers depend on its own registers only (spec/41_generator.md R131). -/

namespace Sys2Proof.Machine

/-- The generator's registers are the same. -/
structure SameGenerator (s t : State) : Prop where
  mt : s.mt = t.mt
  cursor : s.cursor = t.cursor
  genValid : s.genValid = t.genValid

theorem startGen_sameGenerator (seed : Word) (s t : State) : SameGenerator (startGen seed s) (startGen seed t) :=
  ⟨rfl, rfl, rfl⟩

section
variable {s t : State} (h : SameGenerator s t)
include h

theorem twistIfExhausted_sameGenerator : SameGenerator (twistIfExhausted s) (twistIfExhausted t) := by
  unfold twistIfExhausted
  rw [h.cursor]
  split
  · exact ⟨congrArg twistArray h.mt, rfl, h.genValid⟩
  · exact h

theorem SameGenerator.nextWord_eq : nextWord s = nextWord t := by
  have h' := twistIfExhausted_sameGenerator h
  rw [nextWord, nextWord, h'.mt, h'.cursor]

theorem afterNext_sameGenerator : SameGenerator (afterNext s) (afterNext t) := by
  obtain ⟨hmt, hcursor, hvalid⟩ := twistIfExhausted_sameGenerator h
  exact ⟨hmt, congrArg (· + 1) hcursor, hvalid⟩

/-- GINIT overwrites the generator; a consuming command reads nothing else. -/
theorem effect_sameGenerator {i : Instr} (hi : i.ofGenerator = true) :
    SameGenerator (effect i s) (effect i t) ∧ (effect i t).rsp = (effect i s).rsp := by
  cases i using consumer_cases with
  | hclr | hchr _ | hfin | ginits | rdst => cases hi
  | ginit seed => exact ⟨startGen_sameGenerator seed s t, rfl⟩
  | consumer i hc =>
    cases hv : t.genValid with
    | false =>
      rw [effect_of_consumes_uninit hc (h.genValid.trans hv), effect_of_consumes_uninit hc hv]
      exact ⟨⟨h.mt, h.cursor, h.genValid⟩, rfl⟩
    | true =>
      have hnext := afterNext_sameGenerator h
      rw [effect_of_consumes_valid hc (h.genValid.trans hv), effect_of_consumes_valid hc hv, h.nextWord_eq]
      exact ⟨⟨hnext.mt, hnext.cursor, rfl⟩, rfl⟩

theorem session_sameGenerator {is : List Instr} (his : ∀ i ∈ is, i.ofGenerator = true ∧ i.wf = true) :
    ∃ s' t' rs, session (commands is) s = some (s', rs) ∧ session (commands is) t = some (t', rs) ∧
      SameGenerator s' t' := by
  refine session_answers_agree (P := fun e => ∃ i ∈ is, e = .command (encode i)) ?_ _ s t ?_ h
  · rintro _ s t ⟨i, hi, rfl⟩ hst
    obtain ⟨hgen, hwf⟩ := his i hi
    simp only [inputEffect_command_of_decode (decode_encode hwf)]
    exact effect_sameGenerator hst hgen
  · intro e he
    obtain ⟨i, hi, rfl⟩ := List.mem_map.mp he
    exact ⟨i, hi, rfl⟩

end

/-- Settles O27: after the GINIT the two generators are the same, and the list keeps them so. -/
theorem sameSeedGivesTheSameAnswers : Obligations.SameSeedGivesTheSameAnswers := by
  intro is seed s s' his
  obtain ⟨t, t', rs, hs, ht, hgen⟩ := session_sameGenerator (startGen_sameGenerator seed s s') his
  exact ⟨t, t', .done :: rs, session_commands_cons rfl rfl hs, session_commands_cons rfl rfl ht, hgen.mt, hgen.cursor,
    hgen.genValid⟩

end Sys2Proof.Machine
end

section
/-! SUPPORT. The output groups of the cipher byte by byte (spec/42_cipher.md R151) and its commands one by one
(R152 to R155). -/

namespace Sys2Proof.Machine

/-! ### Output groups -/

theorem groupMask_getLsbD (m k : Nat) : (groupMask m).getLsbD k = (decide (k < 32) && decide (k < 8 * m)) := by
  rw [groupMask, BitVec.getLsbD_ofNat, Nat.testBit_two_pow_sub_one]

theorem byteOf_groupXor {m : Nat} (v w : Word) {i : Nat} (hm : m ≤ 4) :
    byteOf (groupXor m v w) i = if i < m then byteOf v i ^^^ byteOf w i else 0 := by
  ext j hj
  simp only [byteOf, groupXor, BitVec.getElem_extractLsb', BitVec.getLsbD_and, BitVec.getLsbD_xor, groupMask_getLsbD]
  by_cases hi : i < m
  · have hbit : 8 * i + j < 32 ∧ 8 * i + j < 8 * m := by omega
    simp [hi, hbit, BitVec.getElem_extractLsb']
  · have hbit : ¬ 8 * i + j < 8 * m := by omega
    simp [hi, hbit]

/-- Settles O30: the mask keeps the bytes of the group and clears those above it. -/
theorem outputGroupsHideUnusedKeystreamBytes : Obligations.OutputGroupsHideUnusedKeystreamBytes :=
  fun _ v w _ hm _ => byteOf_groupXor v w hm

/-- The mask of a full group keeps every bit. -/
theorem groupXor_full (v w : Word) : groupXor Config.groupBytes v w = v ^^^ w := BitVec.and_allOnes

/-! ### The commands -/

/-- Settles O31: XORW's effect by the two cases of GEN_VALID; a full group of zeros is the keystream word itself. -/
theorem xorwCiphersAFullGroup : Obligations.XorwCiphersAFullGroup := by
  refine ⟨fun v => runsAs_of_decode (decode_encode (i := .xorw v) rfl), fun v s hv => ?_,
    fun _ => refusedUninit_of_consumes rfl, fun s => ?_⟩
  · rw [exec_eq_effect, effect, withKeystream_valid hv, groupXor_full]
    rfl
  · have hzero : ∀ w : Word, 0 ^^^ w = w := fun _ => BitVec.zero_xor
    simp only [exec_eq_effect, effect, groupXor_full, hzero]

/-- R153, R154 and R155 in one: a command of format P that runs `finalGroup`. -/
theorem finalGroupRule {k : Fin 5} {op : BitVec 8} {mk : Word → Instr} {mask : Word}
    (hdecode : ∀ arg, decodeFields op arg = decodeP k mk arg) (hconsumes : ∀ v, (mk v).consumes = true)
    (heffect : ∀ v, effect (mk v) = finalGroup k v) (hmask : groupMask k = mask) : FinalGroupRule k op mk mask := by
  refine ⟨fun arg hfit => runsAs_of_decode ?_, fun arg hbig => refusedIllegal_of_reject (r := .reservedBits) ?_,
    fun v s hv => ?_, fun v => refusedUninit_of_consumes (hconsumes v)⟩
  · rw [decode_append, hdecode]
    exact decodeP_of_fits (decide_eq_true hfit)
  · rw [decode_append, hdecode, decodeP, if_neg]
    simpa [fitsBytes] using hbig
  · rw [exec_eq_effect, heffect, finalGroup, withKeystream_valid hv, groupXor, hmask]
    rfl

/-- Settles O32: the rule of a final group at `k` = 1. -/
theorem xorp1CiphersAFinalByte : Obligations.Xorp1CiphersAFinalByte :=
  finalGroupRule (fun _ => rfl) (fun _ => rfl) (fun _ => rfl) rfl

/-- Settles O33: the rule of a final group at `k` = 2. -/
theorem xorp2CiphersTwoFinalBytes : Obligations.Xorp2CiphersTwoFinalBytes :=
  finalGroupRule (fun _ => rfl) (fun _ => rfl) (fun _ => rfl) rfl

/-- Settles O34: the rule of a final group at `k` = 3. -/
theorem xorp3CiphersThreeFinalBytes : Obligations.Xorp3CiphersThreeFinalBytes :=
  finalGroupRule (fun _ => rfl) (fun _ => rfl) (fun _ => rfl) rfl

end Sys2Proof.Machine
end

section
/-! SUPPORT. The reference cipher byte by byte (spec/42_cipher.md R150, R157, R163). -/

namespace Sys2Proof.Machine

@[simp] theorem transform_length (s : List Byte) (seed : Word) : (transform s seed).length = s.length := by
  simp [transform]

@[simp] theorem transform_getElem (s : List Byte) (seed : Word) {p : Nat} (h : p < (transform s seed).length) :
    (transform s seed)[p] =
      s[p]'(transform_length s seed ▸ h) ^^^ byteOf (keystreamWord seed (p / 4)) (p % 4) := by
  simp [transform, Config.groupBytes]

theorem keystream_getElem? (seed : Word) {n j : Nat} (h : j < n) :
    (keystream seed n)[j]? = some (keystreamWord seed j) := by
  simp [keystream, h]

/-- Settles O35: byte `p` lies in group `floor(p/4)`, one of the `ceil(L/4)` groups. -/
theorem transformXorsByteByByte : Obligations.TransformXorsByteByByte := by
  refine fun s seed => ⟨transform_length s seed, fun p h => ⟨keystreamWord seed (p / 4), ?_, ?_⟩⟩
  · exact keystream_getElem? seed (by omega)
  · rw [List.getElem?_eq_getElem ((transform_length s seed).symm ▸ h), transform_getElem, byteOf]

/-- Settles O36: each byte is XORed twice with the same keystream byte. -/
theorem transformIsItsOwnInverse : Obligations.TransformIsItsOwnInverse := by
  refine fun s seed => List.ext_getElem (by simp) fun p _ _ => ?_
  rw [transform_getElem, transform_getElem, BitVec.xor_assoc, BitVec.xor_self, BitVec.xor_zero]

/-- Settles O37: the second pass XORs what the first left. -/
theorem twoSeedsLeaveBothKeystreams : Obligations.TwoSeedsLeaveBothKeystreams := by
  intro s seed1 seed2 p h
  rw [List.getElem?_eq_getElem (by simpa using h), transform_getElem, transform_getElem]

end Sys2Proof.Machine
end

section
/-! SUPPORT. The pseudo-command XORS computes transform (spec/42_cipher.md R160): one group at a time, from any word of
the keystream on, and after KEY under the seed of its name. -/

namespace Sys2Proof.Machine

/-! ### The reference from word `j` of the keystream on -/

/-- `transform` with the keystream read from word `j` on. -/
def transformFrom (seed : Word) (j : Nat) (bs : List Byte) : List Byte :=
  bs.mapIdx fun p b => b ^^^ byteOf (keystreamWord seed (j + p / 4)) (p % 4)

theorem transformFrom_zero (seed : Word) (bs : List Byte) : transformFrom seed 0 bs = transform bs seed := by
  simp [transformFrom, transform, Config.groupBytes]

/-- A single group is its output group (R151) for the one word it meets. -/
theorem transformFrom_group (seed : Word) (j : Nat) {g : List Byte} (hg : g.length ≤ 4) :
    transformFrom seed j g = bytesOf g.length (groupXor g.length (groupOf g) (keystreamWord seed j)) := by
  refine List.ext_getElem (by simp [transformFrom]) fun p _ hp => ?_
  rw [bytesOf_length] at hp
  have hp4 : p < 4 := by omega
  rw [bytesOf_getElem, byteOf_groupXor _ _ hg, if_pos hp, byteOf_groupOf g hp4 hp]
  simp [transformFrom, Nat.div_eq_of_lt hp4, Nat.mod_eq_of_lt hp4]

/-- After a full group the rest meets the next word. -/
theorem transformFrom_append (seed : Word) (j : Nat) {g : List Byte} (hg : g.length = 4) (rest : List Byte) :
    transformFrom seed j (g ++ rest) = transformFrom seed j g ++ transformFrom seed (j + 1) rest := by
  have hword : ∀ p, j + (p + 4) / 4 = j + 1 + p / 4 := by omega
  simp only [transformFrom, List.mapIdx_append, hg, hword, Nat.add_mod_right]

/-! ### One group -/

theorem groupOf_toNat_lt (bs : List Byte) : (groupOf bs).toNat < 2 ^ (8 * bs.length) := by
  induction bs with
  | nil => decide
  | cons b bs ih =>
    have hpow : 2 ^ (8 * (b :: bs).length) = 2 ^ (8 * bs.length) * 2 ^ 8 := by
      rw [List.length_cons, Nat.mul_succ, Nat.pow_add]
    rw [groupOf, BitVec.toNat_or]
    refine Nat.or_lt_two_pow ?_ ?_
    · have := Nat.two_pow_pos (8 * bs.length)
      have := b.isLt
      rw [BitVec.toNat_setWidth, hpow]
      omega
    · rw [BitVec.toNat_shiftLeft, Nat.shiftLeft_eq, hpow]
      omega

theorem fitsBytes_groupOf (g : List Byte) : fitsBytes g.length (groupOf g) = true :=
  decide_eq_true (groupOf_toNat_lt g)

/-- The command `i` ciphers the group `g`: it answers the output group's bytes (R151) and, if the group is short, ends
the stream. -/
structure CiphersGroup (g : List Byte) (i : Instr) : Prop where
  wf : i.wf = true
  consumes : i.consumes = true
  ends : endsStream i = !decide (g.length = 4)
  st : ∀ w, (streamAnswer i w).st = .ok
  bytes : ∀ w, (streamAnswer i w).bytes = bytesOf g.length (groupXor g.length (groupOf g) w)

theorem xorw_ciphersGroup (b0 b1 b2 b3 : Byte) :
    CiphersGroup [b0, b1, b2, b3] (.xorw (groupOf [b0, b1, b2, b3])) :=
  ⟨rfl, rfl, rfl, fun _ => rfl, fun _ => rfl⟩

theorem xorp1_ciphersGroup (b0 : Byte) : CiphersGroup [b0] (.xorp1 (groupOf [b0])) :=
  ⟨fitsBytes_groupOf [b0], rfl, rfl, fun _ => rfl, fun _ => rfl⟩

theorem xorp2_ciphersGroup (b0 b1 : Byte) : CiphersGroup [b0, b1] (.xorp2 (groupOf [b0, b1])) :=
  ⟨fitsBytes_groupOf [b0, b1], rfl, rfl, fun _ => rfl, fun _ => rfl⟩

theorem xorp3_ciphersGroup (b0 b1 b2 : Byte) : CiphersGroup [b0, b1, b2] (.xorp3 (groupOf [b0, b1, b2])) :=
  ⟨fitsBytes_groupOf [b0, b1, b2], rfl, rfl, fun _ => rfl, fun _ => rfl⟩

/-! ### The stream -/

/-- The answers `rs` and the last state `t` of a stream ciphered from word `j` on (R160). -/
structure StreamCiphered (seed : Word) (j : Nat) (bs : List Byte) (t : State) (rs : List Response) : Prop where
  bytes : responseBytes rs = transformFrom seed j bs
  st : ∀ r ∈ rs, r.st = .ok
  count : rs.length = (bs.length + 3) / 4
  cursor : t.cursor.toNat = (j + (bs.length + 3) / 4 + 623) % 624 + 1
  genValid : t.genValid = decide (bs.length % 4 = 0)

theorem StreamAt.streamCiphered_nil {seed : Word} {j : Nat} {s : State} (h : StreamAt seed j s) :
    StreamCiphered seed j [] s [] :=
  ⟨rfl, by simp, rfl, h.cursor, h.valid⟩

/-- The answer of a group's command holds the group's bytes of the reference. -/
theorem CiphersGroup.bytes_eq_transformFrom {g : List Byte} {i : Instr} (hi : CiphersGroup g i) (hg : g.length ≤ 4)
    (seed : Word) (j : Nat) : (streamAnswer i (keystreamWord seed j)).bytes = transformFrom seed j g := by
  rw [hi.bytes, transformFrom_group seed j hg]

/-- A short group ends the stream. -/
theorem session_short_group {seed : Word} {j : Nat} {s : State} (h : StreamAt seed j s) {g : List Byte} {i : Instr}
    (hi : CiphersGroup g i) (hpos : 0 < g.length) (hshort : g.length < 4) :
    ∃ t rs, session (commands [i]) s = some (t, rs) ∧ StreamCiphered seed j g t rs := by
  refine ⟨effect i s, _, session_commands_cons hi.wf (effect_rsp_of_streamAt h hi.consumes) rfl, ?_⟩
  have hcount : (g.length + 3) / 4 = 1 := by omega
  have heffect := effect_of_consumes_valid hi.consumes h.valid
  refine ⟨?_, ?_, hcount.symm, ?_, ?_⟩
  · simpa [responseBytes] using hi.bytes_eq_transformFrom (Nat.le_of_lt hshort) seed j
  · simpa using hi.st _
  · rw [heffect, hcount]
    exact (afterNext_streamAt h).cursor
  · rw [heffect, respond_genValid, hi.ends]
    have h4 : g.length ≠ 4 := by omega
    have hmod : g.length % 4 ≠ 0 := by omega
    simp [h4, hmod]

/-- A full group goes ahead of the rest of the stream. -/
theorem session_full_group {seed : Word} {j : Nat} {s t : State} (h : StreamAt seed j s) {g rest : List Byte}
    {i : Instr} {is : List Instr} {rs : List Response} (hi : CiphersGroup g i) (hg : g.length = 4)
    (hrun : session (commands is) (effect i s) = some (t, rs)) (hrest : StreamCiphered seed (j + 1) rest t rs) :
    ∃ r, session (commands (i :: is)) s = some (t, r :: rs) ∧ StreamCiphered seed j (g ++ rest) t (r :: rs) := by
  refine ⟨_, session_commands_cons hi.wf (effect_rsp_of_streamAt h hi.consumes) hrun, ?_⟩
  have hlen : (g ++ rest).length = rest.length + 4 := by rw [List.length_append, hg, Nat.add_comm]
  have hcount : ((g ++ rest).length + 3) / 4 = (rest.length + 3) / 4 + 1 := by omega
  refine ⟨?_, ?_, ?_, ?_, ?_⟩
  · rw [transformFrom_append seed j hg, ← hi.bytes_eq_transformFrom hg.le, ← hrest.bytes]
    rfl
  · exact List.forall_mem_cons.mpr ⟨hi.st _, hrest.st⟩
  · rw [List.length_cons, hrest.count, hcount]
  · rw [hrest.cursor, hcount]
    omega
  · rw [hrest.genValid, hlen, Nat.add_mod_right]

/-- R160 from any word of the keystream on: the script's own recursion, group by group. -/
theorem session_xorsScript {seed : Word} (bs : List Byte) {j : Nat} {s : State} (h : StreamAt seed j s) :
    ∃ t rs, session (commands (xorsScript bs)) s = some (t, rs) ∧ StreamCiphered seed j bs t rs := by
  induction bs using xorsScript.induct generalizing j s with
  | case1 => exact ⟨s, [], rfl, h.streamCiphered_nil⟩
  | case2 b0 => exact session_short_group h (xorp1_ciphersGroup b0) (by simp) (by simp)
  | case3 b0 b1 => exact session_short_group h (xorp2_ciphersGroup b0 b1) (by simp) (by simp)
  | case4 b0 b1 b2 => exact session_short_group h (xorp3_ciphersGroup b0 b1 b2) (by simp) (by simp)
  | case5 b0 b1 b2 b3 rest ih =>
    have hi := xorw_ciphersGroup b0 b1 b2 b3
    obtain ⟨t, rs, hrun, hrest⟩ := ih (effect_streamAt h hi.consumes rfl)
    obtain ⟨r, hall, hstream⟩ := session_full_group h hi rfl hrun hrest
    exact ⟨t, r :: rs, hall, hstream⟩

/-! ### The obligations -/

/-- Settles O38: a fresh generator stands at word 0. -/
theorem xorsComputesTransform : Obligations.XorsComputesTransform := by
  intro s seed bytes hne hvalid hmt hcursor
  have hpos : 0 < bytes.length := List.length_pos_iff.mpr hne
  have hstart : StreamAt seed 0 s := ⟨hvalid, hmt, congrArg BitVec.toNat hcursor⟩
  obtain ⟨t, rs, hrun, hstream⟩ := session_xorsScript bytes hstart
  refine ⟨t, rs, hrun, ?_, hstream.st, hstream.count, ?_, hstream.genValid⟩
  · rw [hstream.bytes, transformFrom_zero]
  · rw [hstream.cursor]
    omega

/-- KEY leaves the generator at word 0 of the keystream of the name's seed. -/
theorem session_keyScript (name : List Word) (s : State) :
    ∃ t rs, session (commands (keyScript name)) s = some (t, rs) ∧ rs.length = name.length + 3 ∧
      StreamAt (BitVec.ofNat 32 (deriveSeed s.sepNat (codePoints name))) 0 t := by
  obtain ⟨⟨u, rs, hrun, hseed, hrs, -⟩, -⟩ := hashComputesDeriveSeed s name
  have hginits : session (commands [.ginits]) u = some (startGen u.seed u, [.done]) :=
    session_commands_cons rfl rfl rfl
  refine ⟨startGen u.seed u, rs ++ [.done], ?_, ?_, ?_⟩
  · rw [keyScript, commands_append]
    exact session_append _ _ _ _ _ _ _ hrun hginits
  · simp [hrs]
  · rw [← hseed, BitVec.ofNat_toNat, BitVec.setWidth_eq]
    exact startGen_streamAt u.seed u

/-- Settles O39: KEY's answers are dropped, and XORS starts at word 0. -/
theorem keyThenXorsCiphersUnderTheName : Obligations.KeyThenXorsCiphersUnderTheName := by
  intro s name bytes _
  obtain ⟨u, ks, hkey, hlen, hstart⟩ := session_keyScript name s
  obtain ⟨t, rs, hxors, hstream⟩ := session_xorsScript bytes hstart
  refine ⟨t, ks ++ rs, ?_, ?_⟩
  · rw [commands_append]
    exact session_append _ _ _ _ _ _ _ hkey hxors
  · rw [List.drop_left' hlen, hstream.bytes, transformFrom_zero]

end Sys2Proof.Machine
end

section
/-! SUPPORT. The system command RDST (spec/43_system.md R170) and the fields of the status view (spec/10_state.md
R32). -/

namespace Sys2Proof.Machine

theorem status_flags (s : State) :
    s.status.getLsbD 0 = s.genValid ∧ s.status.getLsbD 1 = s.dot ∧ s.status.getLsbD 2 = s.nz ∧
      s.status.getLsbD 3 = s.errs := by
  simp only [State.status, flagBit, BitVec.getLsbD_append]
  simp

/-- Above its four flags, STATUS is `{0[17:0], CURSOR}`. -/
theorem status_extract_above_flags (s : State) (k n : Nat) :
    s.status.extractLsb' (4 + k) n = (0#18 ++ s.cursor).extractLsb' k n := by
  rw [State.status]
  iterate 4 rw [BitVec.extractLsb'_append_eq_of_le (by omega)]
  rw [show 4 + k - 1 - 1 - 1 - 1 = k by omega]

theorem status_cursor (s : State) : s.status.extractLsb' 4 10 = s.cursor :=
  (status_extract_above_flags s 0 10).trans BitVec.extractLsb'_append_eq_right

theorem status_above_cursor (s : State) : s.status.extractLsb' 14 18 = 0 :=
  (status_extract_above_flags s 10 18).trans BitVec.extractLsb'_append_eq_left

/-- Settles O41: the word decodes, a reserved bit refuses it, the effect is RDST's definition, and STATUS is read field
by field. -/
theorem rdstReadsTheStatusView : Obligations.RdstReadsTheStatusView := by
  refine ⟨runsAs_of_decode rfl, fun _ => refusedIllegal_formatN (by decide), fun _ => rfl, fun s => ?_⟩
  obtain ⟨hvalid, hdot, hnz, herrs⟩ := status_flags s
  exact ⟨hvalid, hdot, hnz, herrs, status_cursor s, status_above_cursor s⟩

end Sys2Proof.Machine
end

section
/-! SUPPORT. The answer of a command word says what it did (spec/60_exceptions.md R189): ST_OK with ERRS left as it was,
or a refusal with no other effect. -/

namespace Sys2Proof.Machine

/-- From `s` to `t` a command has been executed: the answer is ST_OK, and ERRS is as before. -/
def AnsweredOk (s t : State) : Prop := ∃ r, t.rsp = some r ∧ r.st = .ok ∧ t.errs = s.errs

theorem respond_answeredOk {r : Response} (hr : r.st = .ok) {s t : State} (h : t.errs = s.errs) :
    AnsweredOk s (respond r t) :=
  ⟨r, rfl, hr, h⟩

theorem streamAnswer_st (i : Instr) (w : Word) : (streamAnswer i w).st = .ok := by
  cases i <;> rfl

/-- Only a consuming command can be refused, and only for GEN_VALID = 0. -/
theorem effect_answeredOk_or_refused (i : Instr) (s : State) :
    AnsweredOk s (effect i s) ∨ effect i s = refuse .uninit s := by
  cases i using consumer_cases with
  | hclr | hfin | ginit _ | ginits | rdst => exact .inl (respond_answeredOk rfl rfl)
  | hchr c => exact .inl (respond_answeredOk rfl (hashChar_errs c s))
  | consumer i hi =>
    cases hv : s.genValid with
    | false => exact .inr (effect_of_consumes_uninit hi hv)
    | true =>
      rw [effect_of_consumes_valid hi hv]
      exact .inl (respond_answeredOk (streamAnswer_st i _) (afterNext_errs s))

theorem command_answeredOk_or_refused (w : PortWord) (s : State) :
    AnsweredOk s (inputEffect (.command w) s) ∨
      ∃ st : Status, st ≠ .ok ∧ inputEffect (.command w) s = refuse st s := by
  cases hd : decode w with
  | error r => exact .inr ⟨.illegal, by decide, inputEffect_command_of_reject hd s⟩
  | ok i =>
    rw [inputEffect_command_of_decode hd]
    obtain h | h := effect_answeredOk_or_refused i s
    · exact .inl h
    · exact .inr ⟨.uninit, by decide, h⟩

/-- Running an input takes none of the inputs after it. -/
@[simp] theorem inputEffect_inputs (e : HostInput) (s : State) : (inputEffect e s).inputs = s.inputs := by
  cases e with
  | rst => rfl
  | command w =>
    cases hd : decode w with
    | ok i =>
      obtain ⟨hinputs, -⟩ := effect_inputs_freeCount i s
      rw [inputEffect_command_of_decode hd, hinputs]
    | error r => rw [inputEffect_command_of_reject hd, refuse_inputs]

/-- Settles O8: the step runs the word on the state without it, where it is executed or refused. -/
theorem everyCommandIsAnswered : Obligations.EveryCommandIsAnswered := by
  intro s w rest hs
  have hinputs := inputEffect_inputs (.command w) { s with inputs := rest }
  obtain ⟨r, hr, hok, herrs⟩ | ⟨st, hst, hrefused⟩ := command_answeredOk_or_refused w { s with inputs := rest }
  · exact ⟨_, r, step_cons hs, hinputs, hr, fun _ => herrs, fun h => absurd hok h⟩
  · exact ⟨_, .refusal st, step_cons hs, hinputs, by rw [hrefused]; rfl, fun h => absurd h hst, fun _ => hrefused⟩

end Sys2Proof.Machine
end

section
/-! SUPPORT. How long GEN_VALID stays 0 (spec/10_state.md R29, spec/60_exceptions.md R188). -/

namespace Sys2Proof.Machine

/-- A final group leaves GEN_VALID 0, refused or not. -/
@[simp] theorem finalGroup_genValid (k : Fin 5) (v : Word) (s : State) : (finalGroup k v s).genValid = false := by
  cases hv : s.genValid with
  | true => rw [finalGroup, withKeystream_valid hv]; rfl
  | false => rw [finalGroup, withKeystream_uninit hv, refuse_genValid, hv]

/-- No input but the word of a GINIT or GINITS sets GEN_VALID. -/
theorem inputEffect_keeps_invalid {e : HostInput} (he : ¬ initialises e) {s : State} (hv : s.genValid = false) :
    (inputEffect e s).genValid = false := by
  cases e with
  | rst => rfl
  | command w =>
    cases hd : decode w with
    | error r => rw [inputEffect_command_of_reject hd, refuse_genValid, hv]
    | ok i =>
      rw [inputEffect_command_of_decode hd]
      obtain hinit | ⟨v, rfl | rfl | rfl⟩ | hsame := effect_genValid i s
      · refine absurd ⟨w, rfl, ?_⟩ he
        obtain rfl | ⟨seed, rfl⟩ := hinit
        · exact .inl hd
        · exact .inr ⟨seed, hd⟩
      · exact finalGroup_genValid 1 v s
      · exact finalGroup_genValid 2 v s
      · exact finalGroup_genValid 3 v s
      · rw [hsame, hv]

/-- Settles O40: R188's refusal, the two ways GEN_VALID becomes 0, and a session's fold over inputs that keep it 0. -/
theorem consumersNeedAValidGenerator : Obligations.ConsumersNeedAValidGenerator := by
  refine ⟨fun _ => refusedUninit_of_consumes, fun s rest t hs hstep => ?_, fun v s t h => ?_, fun es s hv hes => ?_⟩
  · rw [step_cons hs, Host.Outcome.next.injEq] at hstep
    rw [← hstep]
    exact takeReset_genValid _
  · obtain h | h | h := h
    all_goals
      obtain rfl := eq_effect_of_exec h
      exact finalGroup_genValid _ v s
  · obtain ⟨rs, hrun⟩ := session_runs es s
    exact ⟨_, rs, hrun, List.foldlRecOn (motive := (State.genValid · = false)) es _ hv
      fun _ hu e he => inputEffect_keeps_invalid (hes e he) hu⟩

end Sys2Proof.Machine
end

section
/-! SUPPORT. The block's ports on an edge with `rst = 1` (spec/60_exceptions.md R195, spec/70_reset_and_hazards.md R215,
R216). -/

namespace Sys2Proof.Machine

section
variable {i : PinsIn} (p : PortState)

/-- In every phase: the core takes its reset state, and nothing is in flight. -/
theorem clockEdge_rst (hrst : i.rst = true) : clockEdge i p = .next ⟨takeReset p.core, .idle, p.ticks + 1⟩ := by
  simp [clockEdge, hrst]

theorem pinsOut_cmdReady_of_rst (hrst : i.rst = true) : (pinsOut i p).cmdReady = false := by
  simp [pinsOut, hrst]

theorem pinsOut_rspValid_of_rst (hrst : i.rst = true) : (pinsOut i p).rspValid = false := by
  simp [pinsOut, hrst]

theorem acceptedAt_of_rst (hrst : i.rst = true) : acceptedAt i p = [] := by
  simp [acceptedAt, pinsOut_cmdReady_of_rst p hrst]

theorem deliveredAt_of_rst (hrst : i.rst = true) : deliveredAt i p = [] := by
  simp [deliveredAt, pinsOut_rspValid_of_rst p hrst]

end

/-- Settles O52: the outputs under `rst`, and the registers of `takeReset` one by one. -/
theorem rstWinsAtThePorts : Obligations.RstWinsAtThePorts := fun p _ hrst =>
  ⟨pinsOut_cmdReady_of_rst p hrst, pinsOut_rspValid_of_rst p hrst, acceptedAt_of_rst p hrst,
    deliveredAt_of_rst p hrst, _, clockEdge_rst p hrst, rfl, takeReset_rsp _, takeReset_accStem _,
    takeReset_accFull _, takeReset_dot _, takeReset_nz _, takeReset_seed _, takeReset_cursor _,
    takeReset_genValid _, takeReset_errs _⟩

end Sys2Proof.Machine
end

section
/-! SUPPORT. The block never waits for anything but the host (spec/70_reset_and_hazards.md R234): a step without an
input, and the edges from a command's acceptance to its answer. -/

namespace Sys2Proof.Machine

/-- Settles O7: the step's branch for no input is `waitForHost`. -/
theorem stepWithoutInputWaits : Obligations.StepWithoutInputWaits := by
  intro s hs
  simp only [step, hs, waitForHost]

/-! ### From a command's acceptance to its answer -/

/-- A run whose first edge leads to `q` goes on as a run from `q`, after what that edge transfers. -/
theorem clockRun_cons {i : PinsIn} {is : List PinsIn} {p q : PortState} {tr : ClockTrace}
    (hedge : clockEdge i p = .next q) (hrun : clockRun is q = some tr) :
    clockRun (i :: is) p = some ⟨tr.last, acceptedAt i p ++ tr.accepted, deliveredAt i p ++ tr.delivered⟩ := by
  rw [clockRun, hedge]
  simp only [hrun, Option.map_some]

/-- An edge with a command in flight transfers nothing. -/
theorem clockRun_cons_of_busy {i : PinsIn} {is : List PinsIn} {p q : PortState} {tr : ClockTrace} {w : PortWord}
    {left : Nat} (hp : p.phase = .busy w left) (hedge : clockEdge i p = .next q) (hrun : clockRun is q = some tr) :
    clockRun (i :: is) p = some tr := by
  rw [clockRun_cons hedge hrun, acceptedAt_of_not_idle (by simp [hp]), deliveredAt_of_not_responding (by simp [hp])]
  rfl

/-- A waiting response is delivered on the first edge with `rsp_ready` up. -/
theorem clockRun_of_responding {p : PortState} {r : Response} {j : PinsIn} (hp : p.phase = .responding)
    (hr : p.core.rsp = some r) (hrst : j.rst = false) (hready : j.rspReady = true) :
    clockRun [j] p = some ⟨{ p with phase := .idle, ticks := p.ticks + 1 }, [], [r.word]⟩ := by
  rw [clockRun_cons (clockEdge_deliver hrst hp hready) rfl, acceptedAt_of_not_idle (by simp [hp]),
    deliveredAt_of_responding hrst hp hr, if_pos hready]
  rfl

/-- With `left` edges still to count, a command in flight is answered by the edge after the one that executes it: by
induction on `left`, `left + 2` edges do it. -/
theorem clockRun_of_busy {w : PortWord} {left : Nat} {p : PortState} {r : Response} {later : List PinsIn}
    (hp : p.phase = .busy w left) (hr : (inputEffect (.command w) p.core).rsp = some r)
    (hlen : later.length = left + 2) (hlater : ∀ j ∈ later, j.rst = false ∧ j.rspReady = true) :
    clockRun later p =
      some ⟨⟨inputEffect (.command w) p.core, .idle, p.ticks + (left + 2)⟩, [], [r.word]⟩ := by
  induction left generalizing p later with
  | zero =>
    obtain ⟨j, k, rfl⟩ := List.length_eq_two.mp hlen
    obtain ⟨⟨hj, -⟩, hk, hready⟩ : (j.rst = false ∧ j.rspReady = true) ∧ k.rst = false ∧ k.rspReady = true := by
      simpa using hlater
    exact clockRun_cons_of_busy hp (clockEdge_execute hj hp) (clockRun_of_responding rfl hr hk hready)
  | succ left ih =>
    obtain ⟨j, js, rfl⟩ := List.exists_cons_of_length_eq_add_one hlen
    obtain ⟨⟨hj, -⟩, hjs⟩ := List.forall_mem_cons.mp hlater
    have hrest := ih (p := { p with phase := .busy w left, ticks := p.ticks + 1 }) rfl hr (Nat.succ.inj hlen) hjs
    rw [clockRun_cons_of_busy hp (clockEdge_count hj hp) hrest]
    simp only [Nat.add_assoc, Nat.add_comm 1]

/-- Settles O54: the accepting edge fixes the latency, and two more edges than it execute and deliver. -/
theorem everyAcceptedCommandIsAnswered : Obligations.EveryAcceptedCommandIsAnswered := by
  intro p i hidle hrst hvalid
  refine ⟨Config.latency i.cmd p + 2, fun later hlen hlater => ?_⟩
  obtain ⟨r, hr, -⟩ := command_answers i.cmd p.core
  have hanswer := clockRun_of_busy (p := { p with phase := .busy i.cmd (Config.latency i.cmd p), ticks := p.ticks + 1 })
    rfl hr hlen fun j hj => (hlater j hj).imp_right And.right
  refine ⟨_, r.word, clockRun_cons (clockEdge_accept hrst hidle hvalid) hanswer, rfl, ?_, ?_⟩
  · simp [acceptedAt_of_idle hrst hidle, hvalid]
  · simp [deliveredAt_of_not_responding, hidle]

end Sys2Proof.Machine
end
